-- ==== Sys2Proof/Word.lean ====
section
/-! DEFINITION. The words of the block, each at the width 00_scope.md R7 and 30_encoding.md R48 give it.
All values are unsigned (R8). -/

namespace Sys2Proof

/-- One input event, `w[63:0]` (30_encoding.md R48). -/
abbrev EventWord := BitVec 64

/-- A timestamp or a duration in microseconds, TS_W = 32 bits (R7). -/
abbrev Timestamp := BitVec 32

/-- A frame word, FRAME_W = 32 bits, bit 0 the least significant (R7, R12). -/
abbrev Frame := BitVec 32

/-- The address field: the player ID, 16 bits (R7). -/
abbrev Address := BitVec 16

/-- The command field: the team ID, 8 bits (R7). -/
abbrev Command := BitVec 8

end Sys2Proof
end

