-- ==== Sys2Proof/Syntax.lean ====
section
/-! DEFINITION. The block's instruction set: its seven input events (00_scope.md R2, 30_encoding.md R49),
one constructor for each row of spec/opcode_table.json. An operand's type is its field's exact width (R50, R51, R53). -/

namespace Sys2Proof

/-- One input event (R49). -/
inductive Instr where
  /-- EDGE_FALL: the start of a burst at `now` (43_decoder.md R91). -/
  | edgeFall (now : Timestamp)
  /-- EDGE_RISE: the end of a burst at `now` (43_decoder.md R90). -/
  | edgeRise (now : Timestamp)
  /-- TX_FRAME: a request to send one full frame (41_encoder.md R66). -/
  | txFrame (address : Address) (command : Command)
  /-- TX_REPEAT: a request to send one repeat code (41_encoder.md R67). -/
  | txRepeat
  /-- TICK: one microsecond passes (41_encoder.md R68). -/
  | tick
  /-- DRAIN: read and clear the mailbox (44_frame_port.md R105). -/
  | drain
  /-- RESET: every element to its reset value (70_reset_and_hazards.md R133). -/
  | reset
deriving DecidableEq, Repr

/-- The row's mnemonic in spec/opcode_table.json (R49). -/
def Instr.mnemonic : Instr → String
  | .edgeFall _ => "EDGE_FALL"
  | .edgeRise _ => "EDGE_RISE"
  | .txFrame _ _ => "TX_FRAME"
  | .txRepeat => "TX_REPEAT"
  | .tick => "TICK"
  | .drain => "DRAIN"
  | .reset => "RESET"

end Sys2Proof
end

