-- ==== Sys2Proof/WellFormed.lean ====
section
/-! DEFINITION. Well-formedness of what a person writes. An `Instr` carries its operands at their fields' exact
widths, so every `Instr` is well formed by its type and needs no check; the operands that may fail to fit are those of
the assembler's source lines, whose numbers are unbounded (30_encoding.md R58, R59). -/

namespace Sys2Proof

/-- One parsed line of the event syntax (R58) or one pseudo-instruction (R59), its numbers not yet checked. -/
inductive Line where
  | fall (ts : Nat)
  | rise (ts : Nat)
  | tx (address command : Nat)
  | txr
  | tick
  | drain
  | reset
  /-- `TICKS <n>`. -/
  | ticks (n : Nat)
  /-- `MARK <t>, <w>`. -/
  | mark (t w : Nat)
  /-- `NECFRAME <t0>, <F>`. -/
  | necFrame (t0 frame : Nat)
  /-- `NECREPEAT <t0>`. -/
  | necRepeat (t0 : Nat)
deriving DecidableEq, Repr

/-- Do the line's operands fit (R58: `<ts>` in 32 bits, `<address>` in 16, `<command>` in 8)? The times of the
pseudo-instructions are reduced modulo 2^32 (R59, R61) and need no check; NECFRAME's frame is "the 32-bit frame F"
(DEDUCED: a wider one is rejected like any operand that does not fit, log 15). -/
def Line.wellFormed : Line → Bool
  | .fall ts => decide (ts < 2 ^ 32)
  | .rise ts => decide (ts < 2 ^ 32)
  | .tx address command => decide (address < 2 ^ 16) && decide (command < 2 ^ 8)
  | .txr => true
  | .tick => true
  | .drain => true
  | .reset => true
  | .ticks _ => true
  | .mark _ _ => true
  | .necFrame _ frame => decide (frame < 2 ^ 32)
  | .necRepeat _ => true

end Sys2Proof
end

