-- ==== Sys2Proof/Decode.lean ====
section
/-! DEFINITION. The event word: the total decoder of 30_encoding.md R54 (rejecting by name, R56), the matching
patterns of R55, and the encoder written from the formats of R50 to R52. -/

namespace Sys2Proof

/-- Why a word spells no operation (R54, R56). -/
inductive DecodeError where
  /-- Invalid(reserved-op): `op` is 0x0 or 0x8 to 0xF. -/
  | reservedOp
  /-- Invalid(reserved-bits): a valid `op` with a nonzero reserved bit. -/
  | reservedBits
deriving DecidableEq, Repr

/-- `op = w[63:60]` (R48). -/
def opField (w : EventWord) : BitVec 4 := w.extractLsb' 60 4

/-- `now = w[31:0]` (R53). -/
def nowField (w : EventWord) : Timestamp := w.extractLsb' 0 32

/-- `address = w[15:0]` (R53). -/
def addressField (w : EventWord) : Address := w.extractLsb' 0 16

/-- `command = w[23:16]` (R53). -/
def commandField (w : EventWord) : Command := w.extractLsb' 16 8

/-- The reserved bits `w[59:32]` of format T (R50). -/
def reservedT (w : EventWord) : BitVec 28 := w.extractLsb' 32 28

/-- The reserved bits `w[59:24]` of format A (R51). -/
def reservedA (w : EventWord) : BitVec 36 := w.extractLsb' 24 36

/-- The reserved bits `w[59:0]` of format N (R52). -/
def reservedN (w : EventWord) : BitVec 60 := w.extractLsb' 0 60

/-- The instruction when the format's reserved bits are zero, Invalid(reserved-bits) otherwise (R54). -/
def unlessReserved (reservedZero : Bool) (i : Instr) : Except DecodeError Instr :=
  if reservedZero then .ok i else .error .reservedBits

/-- The decode function, total on every 64-bit word (R54). -/
def decode (w : EventWord) : Except DecodeError Instr :=
  if opField w = 1#4 then unlessReserved (reservedT w == 0#28) (.edgeFall (nowField w))
  else if opField w = 2#4 then unlessReserved (reservedT w == 0#28) (.edgeRise (nowField w))
  else if opField w = 3#4 then unlessReserved (reservedA w == 0#36) (.txFrame (addressField w) (commandField w))
  else if opField w = 4#4 then unlessReserved (reservedN w == 0#60) .txRepeat
  else if opField w = 5#4 then unlessReserved (reservedN w == 0#60) .tick
  else if opField w = 6#4 then unlessReserved (reservedN w == 0#60) .drain
  else if opField w = 7#4 then unlessReserved (reservedN w == 0#60) .reset
  else .error .reservedOp

/-- The `op` of each event (R49). -/
def opcode : Instr → BitVec 4
  | .edgeFall _ => 1#4
  | .edgeRise _ => 2#4
  | .txFrame _ _ => 3#4
  | .txRepeat => 4#4
  | .tick => 5#4
  | .drain => 6#4
  | .reset => 7#4

/-- A word of format T: `op << 60 | ts` (R50, R58). -/
def formatT (op : BitVec 4) (now : Timestamp) : EventWord := op.setWidth 64 <<< 60 ||| now.setWidth 64

/-- A word of format A: `op << 60 | command << 16 | address` (R51, R58). -/
def formatA (op : BitVec 4) (address : Address) (command : Command) : EventWord :=
  op.setWidth 64 <<< 60 ||| command.setWidth 64 <<< 16 ||| address.setWidth 64

/-- A word of format N: `op << 60` (R52, R58). -/
def formatN (op : BitVec 4) : EventWord := op.setWidth 64 <<< 60

/-- The word of an event (R49 to R52). -/
def encode : Instr → EventWord
  | .edgeFall now => formatT 1#4 now
  | .edgeRise now => formatT 2#4 now
  | .txFrame address command => formatA 3#4 address command
  | .txRepeat => formatN 4#4
  | .tick => formatN 5#4
  | .drain => formatN 6#4
  | .reset => formatN 7#4

/-- One row of the pattern table (R55): a word is the row's when the bits under `mask` are `value`. -/
structure PatternRow where
  mnemonic : String
  value : EventWord
  mask : EventWord
deriving DecidableEq, Repr

/-- The matching patterns as R55 lists them. -/
def patternTable : List PatternRow :=
  [ ⟨"EDGE_FALL", 0x1000000000000000, 0xFFFFFFFF00000000⟩,
    ⟨"EDGE_RISE", 0x2000000000000000, 0xFFFFFFFF00000000⟩,
    ⟨"TX_FRAME", 0x3000000000000000, 0xFFFFFFFFFF000000⟩,
    ⟨"TX_REPEAT", 0x4000000000000000, 0xFFFFFFFFFFFFFFFF⟩,
    ⟨"TICK", 0x5000000000000000, 0xFFFFFFFFFFFFFFFF⟩,
    ⟨"DRAIN", 0x6000000000000000, 0xFFFFFFFFFFFFFFFF⟩,
    ⟨"RESET", 0x7000000000000000, 0xFFFFFFFFFFFFFFFF⟩ ]

/-- Does the word match the row (R55)? -/
def PatternRow.covers (r : PatternRow) (w : EventWord) : Bool := w &&& r.mask == r.value

/-- The event word whose low `nbits` bits are those of `w` and whose other bits are 0, as the opcode table numbers
them. An event is one 64-bit word (R48), so there is no byte order to choose (20_memory.md R38). -/
def tableWord (nbits w : Nat) : EventWord := BitVec.ofNat 64 (w % 2 ^ nbits)

/-- What the decoder reads from an opcode-table word; none where it refuses. -/
def decodeTableWord (nbits w : Nat) : Option Instr :=
  match decode (tableWord nbits w) with
  | .ok i => some i
  | .error _ => none

end Sys2Proof
end

