-- ==== Sys2Proof/Config.lean ====
section
/-! DEFINITION. What is fixed for the block and no event can write (10_state.md R28): the protocol's
durations (00_scope.md R5) and tolerance windows (R6); and the values the spec leaves open, as opaque constants.
The encoder's lookup table over these constants (41_encoder.md R64) is in Machine/Operands.lean and Machine/Flags.lean. -/

namespace Sys2Proof.Config

/-- LEADING_PULSE (R5). -/
@[simp, reducible] def leadingPulse : Nat := 9000

/-- LEADING_SPACE (R5). -/
@[simp, reducible] def leadingSpace : Nat := 4500

/-- PULSE: before every data bit, and the stop pulse (R5). -/
@[simp, reducible] def pulse : Nat := 560

/-- ZERO_SPACE (R5). -/
@[simp, reducible] def zeroSpace : Nat := 560

/-- ONE_SPACE (R5). -/
@[simp, reducible] def oneSpace : Nat := 1690

/-- REPEAT_SPACE (R5). -/
@[simp, reducible] def repeatSpace : Nat := 2250

/-- An open interval of microseconds; both bounds are excluded (R6). -/
structure Window where
  lower : Nat
  upper : Nat
deriving DecidableEq, Repr

/-- The LEADING window (4000, 5000) (R6). -/
@[simp, reducible] def leadingWindow : Window := ⟨4000, 5000⟩

/-- The ZERO window (400, 800) (R6). -/
@[simp, reducible] def zeroWindow : Window := ⟨400, 800⟩

/-- The ONE window (1500, 1900) (R6). -/
@[simp, reducible] def oneWindow : Window := ⟨1500, 1900⟩

/-- The REPEAT window (2000, 2500) (R6). -/
@[simp, reducible] def repeatWindow : Window := ⟨2000, 2500⟩

/-- EMIT_DUTY_ON, the level sent to the PWM while the emitter is on: an OPEN parameter of the spec (R7, D8),
whose encoding no rule gives. No body: nothing can be proved of its value (log 9). -/
opaque emitDutyOn : Nat

/-- Free value: what a read of a `bitsAccumulated` that no run reaches (32 to 63) gives, for the n-th such read.
93_implementation_defined.md X4: such values are treated "as `any value`" (log 7). -/
opaque freeCount : Nat → BitVec 6

end Sys2Proof.Config
end

