-- ==== Sys2Proof/Machine/State.lean ====
section
/-! DEFINITION. The state of the block: every element 10_state.md names (R14 to R29), the record of its one-shot
outputs (R33), and the events the agents have still to offer (30_encoding.md R62). Plain data throughout. -/

namespace Sys2Proof.Machine

/-- `dec_state`, 1 bit (R14). -/
inductive DecState where
  | awaitingStart
  | receivingBits
deriving DecidableEq, Repr

/-- `enc_kind`, 1 bit (R22): FRAME or REPEAT. -/
inductive EncKind where
  | fullFrame
  | repeatCode
deriving DecidableEq, Repr

/-- `enc_phase`, a 3-bit code (R24). Code 7 is a value of the field that no event writes. -/
inductive EncPhase where
  | idle
  | leadMark
  | leadSpace
  | repeatSpace
  | bitMark
  | bitSpace
  | stopMark
  | unused
deriving DecidableEq, Repr

/-- A Symbol: what the classifier makes of a measured space (42_classifier.md R80, R81). Transient, never stored. -/
inductive Symbol where
  | invalid
  | zero
  | one
  | repeated
  | leading
deriving DecidableEq, Repr

/-- The sources of events (30_encoding.md R49, 60_exceptions.md R127). -/
inductive Agent where
  | detector
  | issuer
  | timebase
  | consumer
  | reset
deriving DecidableEq, Repr

/-- A one-shot output (10_state.md R33). -/
inductive OutputEvent where
  /-- `signal tx_done` (41_encoder.md R74). -/
  | txDone
  /-- The pair `(ready, frame)` that a DRAIN returns (44_frame_port.md R105). -/
  | drained (ready : Bool) (frame : Frame)
deriving DecidableEq, Repr

/-- What the environment has still to offer: each agent's event words, oldest first (R62), and whose turn comes next.
The interleaving is open (R123), so the schedule is data that no rule constrains (log 1). -/
structure Inputs where
  detector : List EventWord
  issuer : List EventWord
  timebase : List EventWord
  consumer : List EventWord
  resets : List EventWord
  schedule : List Agent
deriving DecidableEq, Repr

/-- No agent has an event to offer. -/
def Inputs.empty : Inputs :=
  { detector := [], issuer := [], timebase := [], consumer := [], resets := [], schedule := [] }

/-- What the schedule's next turn brings. -/
inductive Offer where
  /-- No turn is left: the block is left alone. -/
  | quiet
  /-- The agent whose turn it is has no event. -/
  | absent
  /-- The agent offers a word. -/
  | word (a : Agent) (w : EventWord)
deriving DecidableEq, Repr

/-- Why the machine stops with a fault: never. The block raises no exception and has no trap, and "There is no
fatal/abort path in this subsystem" (60_exceptions.md R115), so this type has no constructor (log 16). -/
inductive Fault where
deriving DecidableEq, Repr

/-- Why an instruction has no meaning. -/
inductive Refusal where
  /-- An arm of `exec` without a meaning, rejected by its mnemonic. No arm answers with it: every event of the
  opcode table has its meaning. Safe: a run that met it would stop. -/
  | notModelled (mnemonic : String)
deriving DecidableEq, Repr

/-- The state between events. -/
structure State where
  /-- `dec_state` (R14). -/
  decState : DecState
  /-- `lastEdgeTimestamp` (R15). -/
  lastEdgeTimestamp : Timestamp
  /-- `bitsAccumulated`, 6 bits (R16). -/
  bitsAccumulated : BitVec 6
  /-- `partialFrame` (R17). -/
  partialFrame : Frame
  /-- `completedFrame` (R18). -/
  completedFrame : Frame
  /-- `frameReady` (R19). -/
  frameReady : Bool
  /-- `enc_phase` (R24). -/
  encPhase : EncPhase
  /-- `enc_kind` (R22). -/
  encKind : EncKind
  /-- `enc_bit`, 5 bits (R23). -/
  encBit : BitVec 5
  /-- `enc_remaining`, 14 bits (R25). -/
  encRemaining : BitVec 14
  /-- `enc_frame` (R21). -/
  encFrame : Frame
  /-- `emit_on` (R26). -/
  emitOn : Bool
  /-- `refused`, sticky, of the model only (R29). -/
  refused : Bool
  /-- The one-shot outputs presented so far, newest first (R33). The model's own record; the block never reads it
  (log 6). -/
  outputs : List OutputEvent
  /-- How many draws of `Config.freeCount` have been made. The model's own field (log 7). -/
  freeDraws : Nat
  /-- The environment's events still to come (R62). -/
  inputs : Inputs
deriving DecidableEq, Repr

/-- The state right after reset and at power-on (10_state.md R34, 70_reset_and_hazards.md R134), `refused = 0`.
The record of outputs, the draw counter and the environment's events are empty (DESIGN CHOICE, log 6, 7, 12). -/
def State.reset : State :=
  { decState := .awaitingStart
    lastEdgeTimestamp := 0#32
    bitsAccumulated := 0#6
    partialFrame := 0#32
    completedFrame := 0#32
    frameReady := false
    encPhase := .idle
    encKind := .fullFrame
    encBit := 0#5
    encRemaining := 0#14
    encFrame := 0#32
    emitOn := false
    refused := false
    outputs := []
    freeDraws := 0
    inputs := Inputs.empty }

end Sys2Proof.Machine
end

