-- ==== Sys2Proof/Machine/Operands.lean ====
section
/-! DEFINITION. The operand computations: the frame built from TX_FRAME's operands (41_encoder.md R66), the fields
taken out of a frame (44_frame_port.md R106), one bit of a frame written (43_decoder.md R94, R95), the duration a
falling edge measures (R92), and the duration column of the encoder's table (41_encoder.md R64). -/

namespace Sys2Proof.Machine

/-- `inv <- (~command)[7:0]` (R66). -/
def invertedCommand (command : Command) : Command := ~~~command

/-- The frame TX_FRAME sends: `zext(address) | zext(command) << 16 | zext(inv) << 24` (R66). -/
def assembleFrame (address : Address) (command : Command) : Frame :=
  address.setWidth 32 ||| (command.setWidth 32 <<< 16) ||| ((invertedCommand command).setWidth 32 <<< 24)

/-- `address <- F[15:0]` (R106). -/
def frameAddress (F : Frame) : Address := F.extractLsb' 0 16

/-- `command <- F[23:16]` (R106). -/
def frameCommand (F : Frame) : Command := F.extractLsb' 16 8

/-- `inverted <- F[31:24]` (R106). -/
def frameInverted (F : Frame) : Command := F.extractLsb' 24 8

/-- `expected(F) = (~F[23:16])[7:0]` (R107). -/
def frameExpected (F : Frame) : Command := ~~~(frameCommand F)

/-- `F` with bit `i` set to `b` (43_decoder.md R91, R94, R95). -/
def setFrameBit (F : Frame) (i : BitVec 5) (b : Bool) : Frame :=
  if b then F ||| (1#32 <<< i.toNat) else F &&& ~~~(1#32 <<< i.toNat)

/-- `d <- now -_32 lastEdgeTimestamp`: the difference modulo 2^32 (R92). -/
def edgeDuration (now last : Timestamp) : Timestamp := now - last

/-- The space that encodes one data bit: ONE_SPACE for 1, ZERO_SPACE for 0 (41_encoder.md R64). -/
def bitSpaceMicros (b : Bool) : Nat := if b then Config.oneSpace else Config.zeroSpace

/-- The microseconds loaded into `enc_remaining` on entering a phase (41_encoder.md R64); BIT_SPACE reads
`enc_frame[enc_bit]`. IDLE is not timed; code 7 is never entered. -/
def phaseMicros (p : EncPhase) (frame : Frame) (bit : BitVec 5) : Nat :=
  match p with
  | .idle => 0
  | .leadMark => Config.leadingPulse
  | .leadSpace => Config.leadingSpace
  | .repeatSpace => Config.repeatSpace
  | .bitMark => Config.pulse
  | .bitSpace => bitSpaceMicros (frame.getLsbD bit.toNat)
  | .stopMark => Config.pulse
  | .unused => 0

end Sys2Proof.Machine
end

