-- ==== Sys2Proof/Machine/Flags.lean ====
section
/-! DEFINITION. The flags and the codes of the block (10_state.md R31): those computed from the state
(`busy`, `awaitingLeadingSpace`), the emitter level of a phase, the checksum relation, and the binary codes of the
enumerated elements. -/

namespace Sys2Proof.Machine

/-- `busy`: the combinational value `enc_phase != IDLE` (R27). -/
def busy (s : State) : Bool := decide (s.encPhase ≠ .idle)

/-- The source's `awaitingLeadingSpace`, the same fact as `dec_state == AWAITING_START` (R14). -/
def awaitingLeadingSpace (s : State) : Bool := decide (s.decState = .awaitingStart)

/-- The emitter level during a phase (41_encoder.md R64; code 7 is OFF, 10_state.md R24). -/
def phaseLevel : EncPhase → Bool
  | .idle => false
  | .leadMark => true
  | .leadSpace => false
  | .repeatSpace => false
  | .bitMark => true
  | .bitSpace => false
  | .stopMark => true
  | .unused => false

/-- `checksum_ok(F) = (F[31:24] == expected(F))` (44_frame_port.md R107); a frame with it is valid (00_scope.md R11). -/
def checksumOk (F : Frame) : Bool := frameInverted F == frameExpected F

/-- The 1-bit code of `dec_state` (R14). -/
def decStateCode : DecState → BitVec 1
  | .awaitingStart => 0
  | .receivingBits => 1

/-- The 1-bit code of `enc_kind` (R22). -/
def encKindCode : EncKind → BitVec 1
  | .fullFrame => 0
  | .repeatCode => 1

/-- The 3-bit code of `enc_phase` (R24). -/
def encPhaseCode : EncPhase → BitVec 3
  | .idle => 0
  | .leadMark => 1
  | .leadSpace => 2
  | .repeatSpace => 3
  | .bitMark => 4
  | .bitSpace => 5
  | .stopMark => 6
  | .unused => 7

/-- The 3-bit code of a symbol (42_classifier.md R81); 5 to 7 are never produced. -/
def symbolCode : Symbol → BitVec 3
  | .invalid => 0
  | .zero => 1
  | .one => 2
  | .repeated => 3
  | .leading => 4

end Sys2Proof.Machine
end

