-- ==== Sys2Proof/Machine/Classifier.lean ====
section
/-! DEFINITION. The symbol timing classifier, a pure function of one duration (42_classifier.md R80, R85), and the
comparator tree that realises it (R82). -/

namespace Sys2Proof.Machine

/-- Is the duration strictly inside the open window (00_scope.md R6)? -/
def insideWindow (w : Config.Window) (d : Timestamp) : Bool :=
  decide (w.lower < d.toNat) && decide (d.toNat < w.upper)

/-- `classify(d)`, the tests in R80's order. -/
def classify (d : Timestamp) : Symbol :=
  if insideWindow Config.leadingWindow d then .leading
  else if insideWindow Config.zeroWindow d then .zero
  else if insideWindow Config.oneWindow d then .one
  else if insideWindow Config.repeatWindow d then .repeated
  else .invalid

/-- The four `hit` outputs of the comparator tree (R82). -/
structure Hits where
  lead : Bool
  zero : Bool
  one : Bool
  rep : Bool
deriving DecidableEq, Repr

/-- The eight strict unsigned 32-bit comparisons, combined as four ANDs (R82). -/
def comparatorHits (d : Timestamp) : Hits :=
  { lead := (4000#32).ult d && d.ult 5000#32
    zero := (400#32).ult d && d.ult 800#32
    one := (1500#32).ult d && d.ult 1900#32
    rep := (2000#32).ult d && d.ult 2500#32 }

/-- The tree's priority select (R82). -/
def comparatorSymbol (d : Timestamp) : Symbol :=
  if (comparatorHits d).lead then .leading
  else if (comparatorHits d).zero then .zero
  else if (comparatorHits d).one then .one
  else if (comparatorHits d).rep then .repeated
  else .invalid

end Sys2Proof.Machine
end

