-- ==== Sys2Proof/Machine/Ops.lean ====
section
/-! DEFINITION. The shared operations on the state, each written once. The block has no trap (60_exceptions.md R115),
so there is no exception entry or return here: `abortFrame` is the local recovery that "takes the place of trap entry"
(R121). It has no memory either (20_memory.md R35). -/

namespace Sys2Proof.Machine

/-! ### One-shot outputs and the hold -/

/-- `signal` and `return`: present a one-shot output to the environment (00_scope.md R9, 10_state.md R33). -/
def present (o : OutputEvent) (s : State) : State := { s with outputs := o :: s.outputs }

/-- `hold`: "the event is not accepted yet" and "the block's state does not change" (00_scope.md R9, 41_encoder.md R73). -/
def hold (s : State) : Host.Outcome State Fault Refusal := .next s

/-- Would the event be held in this state? Only TX_FRAME and TX_REPEAT, and only while `busy` (41_encoder.md R73;
no decoder event, DRAIN or RESET is ever held, 43_decoder.md R88, 44_frame_port.md R105). -/
def held (i : Instr) (s : State) : Bool :=
  match i with
  | .edgeFall _ => false
  | .edgeRise _ => false
  | .txFrame _ _ => busy s
  | .txRepeat => busy s
  | .tick => false
  | .drain => false
  | .reset => false

/-! ### The encoder -/

/-- `enter(p)`: phase, level and duration from the table (41_encoder.md R64). -/
def enterPhase (p : EncPhase) (s : State) : State :=
  { s with
    encPhase := p
    emitOn := phaseLevel p
    encRemaining := BitVec.ofNat 14 (phaseMicros p s.encFrame s.encBit) }

/-- `enc_bit <- bit`. -/
def setEncBit (bit : BitVec 5) (s : State) : State := { s with encBit := bit }

/-- Start a transmission of the given kind: `enc_kind`, `enc_bit <- 0`, `enter(LEAD_MARK)` (41_encoder.md R66, R67). -/
def startTransmission (kind : EncKind) (s : State) : State :=
  enterPhase .leadMark { s with encKind := kind, encBit := 0#5 }

/-- `enc_remaining <- enc_remaining - 1` (41_encoder.md R68). -/
def countDown (s : State) : State := { s with encRemaining := s.encRemaining - 1#14 }

/-- `advance()`: the current segment ends (41_encoder.md R69). IDLE is never advanced (R68); code 7 is stuck
(93_implementation_defined.md X2). -/
def advance (s : State) : State :=
  match s.encPhase with
  | .idle => s
  | .leadMark =>
    match s.encKind with
    | .fullFrame => enterPhase .leadSpace s
    | .repeatCode => enterPhase .repeatSpace s
  | .leadSpace => enterPhase .bitMark (setEncBit 0#5 s)
  | .repeatSpace => enterPhase .stopMark s
  | .bitMark => enterPhase .bitSpace s
  | .bitSpace =>
    if s.encBit = 31#5 then enterPhase .stopMark s
    else enterPhase .bitMark (setEncBit (s.encBit + 1#5) s)
  | .stopMark => present .txDone (enterPhase .idle s)
  | .unused => s

/-! ### The decoder -/

/-- `lastEdgeTimestamp <- now` (43_decoder.md R90, R99). -/
def recordEdge (now : Timestamp) (s : State) : State := { s with lastEdgeTimestamp := now }

/-- A LEADING duration in AWAITING_START starts a frame (43_decoder.md R93). -/
def startFrame (s : State) : State :=
  { s with decState := .receivingBits, bitsAccumulated := 0#6, partialFrame := 0#32 }

/-- Abort: back to AWAITING_START with the count 0, `partialFrame` as it was, nothing published
(43_decoder.md R96, R97). -/
def abortFrame (s : State) : State := { s with decState := .awaitingStart, bitsAccumulated := 0#6 }

/-- Completion (43_decoder.md R98): publish the 32 bits and go back to AWAITING_START. -/
def publishFrame (F : Frame) (s : State) : State :=
  { s with completedFrame := F, frameReady := true, decState := .awaitingStart, bitsAccumulated := 0#6 }

/-- Is the count one that a run can reach (10_state.md R16)? -/
def countReachable (s : State) : Bool := decide (s.bitsAccumulated.toNat < 32)

/-- The value a read of `bitsAccumulated` gives: the count, or a free value where no run can have put it there
(93_implementation_defined.md X4: "`any value`", log 7). -/
def readCount (s : State) : BitVec 6 :=
  if countReachable s then s.bitsAccumulated else Config.freeCount s.freeDraws

/-- One draw of the free value is used up, where one was made. -/
def spendDraw (s : State) : State :=
  { s with freeDraws := if countReachable s then s.freeDraws else s.freeDraws + 1 }

/-- `partialFrame` with the received bit appended: bit `bitsAccumulated[4:0]` set to `b` (43_decoder.md R91). -/
def appendedFrame (b : Bool) (s : State) : Frame :=
  setFrameBit s.partialFrame ((readCount s).extractLsb' 0 5) b

/-- Append one received bit, and complete the frame when the count reaches 32 (43_decoder.md R91, R94, R95, R98). -/
def appendBit (b : Bool) (s : State) : State :=
  let pf := appendedFrame b s
  let n := readCount s + 1#6
  let s₁ := { spendDraw s with partialFrame := pf }
  if n = 32#6 then publishFrame pf s₁ else { s₁ with bitsAccumulated := n }

/-- What a falling edge does with its symbol (43_decoder.md R91, R93 to R97). -/
def actOnSymbol (sym : Symbol) (s : State) : State :=
  match s.decState, sym with
  | .awaitingStart, .leading => startFrame s
  | .awaitingStart, .zero => s
  | .awaitingStart, .one => s
  | .awaitingStart, .repeated => s
  | .awaitingStart, .invalid => s
  | .receivingBits, .zero => appendBit false s
  | .receivingBits, .one => appendBit true s
  | .receivingBits, .repeated => abortFrame s
  | .receivingBits, .invalid => abortFrame s
  | .receivingBits, .leading => abortFrame s

/-! ### The mailbox -/

/-- `frameReady <- 0` (44_frame_port.md R105). -/
def clearReady (s : State) : State := { s with frameReady := false }

/-! ### Events and agents -/

/-- The agent that offers the event (30_encoding.md R49). -/
def agentOf : Instr → Agent
  | .edgeFall _ => .detector
  | .edgeRise _ => .detector
  | .txFrame _ _ => .issuer
  | .txRepeat => .issuer
  | .tick => .timebase
  | .drain => .consumer
  | .reset => .reset

/-- The agent in whose queue a word is put by `withFetchWord`: its event's agent; a word that spells no event has none,
and the Detector's queue is taken (DESIGN CHOICE, log 12). -/
def agentOfWord (w : EventWord) : Agent :=
  match decode w with
  | .ok i => agentOf i
  | .error _ => .detector

/-- An agent's events still to come. -/
def queueOf (a : Agent) (q : Inputs) : List EventWord :=
  match a with
  | .detector => q.detector
  | .issuer => q.issuer
  | .timebase => q.timebase
  | .consumer => q.consumer
  | .reset => q.resets

/-- Replace an agent's events still to come. -/
def setQueue (a : Agent) (ws : List EventWord) (q : Inputs) : Inputs :=
  match a with
  | .detector => { q with detector := ws }
  | .issuer => { q with issuer := ws }
  | .timebase => { q with timebase := ws }
  | .consumer => { q with consumer := ws }
  | .reset => { q with resets := ws }

/-- What the schedule's next turn brings (30_encoding.md R62, 60_exceptions.md R123). -/
def offered (s : State) : Offer :=
  match s.inputs.schedule with
  | [] => .quiet
  | a :: _ =>
    match queueOf a s.inputs with
    | [] => .absent
    | w :: _ => .word a w

/-- The turn is over. -/
def passTurn (s : State) : State :=
  { s with inputs := { s.inputs with schedule := s.inputs.schedule.tail } }

/-- The turn is over and the agent's oldest word is taken from it. -/
def takeWord (a : Agent) (s : State) : State :=
  { s with
    inputs := setQueue a (queueOf a s.inputs).tail { s.inputs with schedule := s.inputs.schedule.tail } }

/-- `refuse`: set the sticky mark, change nothing else (30_encoding.md R56). -/
def refuseWord (s : State) : State := { s with refused := true }

/-- The inputs with one more word, first in its agent's queue, and its agent's turn first. -/
def offerFirst (a : Agent) (w : EventWord) (q : Inputs) : Inputs :=
  setQueue a (w :: queueOf a q) { q with schedule := a :: q.schedule }

/-- The inputs that offer the events in exactly the given total order (30_encoding.md R62). -/
def inputsOf (events : List Instr) : Inputs :=
  events.foldr (fun i q => offerFirst (agentOf i) (encode i) q) Inputs.empty

end Sys2Proof.Machine
end

