-- ==== Sys2Proof/Machine/Decoder.lean ====
section
/-! DEFINITION. The receive decoder's events (43_decoder.md). -/

namespace Sys2Proof.Machine

/-- EDGE_RISE (R90): only records its timestamp. -/
def execEdgeRise (now : Timestamp) (s : State) : Host.Outcome State Fault Refusal :=
  .next (recordEdge now s)

/-- EDGE_FALL (R91): measure the space from the old timestamp, classify it, act on the symbol, and record the
timestamp in every branch (R99). -/
def execEdgeFall (now : Timestamp) (s : State) : Host.Outcome State Fault Refusal :=
  .next (recordEdge now (actOnSymbol (classify (edgeDuration now s.lastEdgeTimestamp)) s))

end Sys2Proof.Machine
end

