-- ==== Sys2Proof/Machine/Encoder.lean ====
section
/-! DEFINITION. The transmit encoder's events (41_encoder.md). -/

namespace Sys2Proof.Machine

/-- TX_FRAME (R66): hold while busy, else load the frame and start. -/
def execTxFrame (address : Address) (command : Command) (s : State) : Host.Outcome State Fault Refusal :=
  if busy s then hold s
  else .next (startTransmission .fullFrame { s with encFrame := assembleFrame address command })

/-- TX_REPEAT (R67): hold while busy, else start; `enc_frame` is not changed. -/
def execTxRepeat (s : State) : Host.Outcome State Fault Refusal :=
  if busy s then hold s else .next (startTransmission .repeatCode s)

/-- TICK (R68). In IDLE nothing changes; code 7 is stuck (93_implementation_defined.md X2, log 8); otherwise the segment
counts down, or ends when `enc_remaining` is not above 1 (0 too: X5). -/
def execTick (s : State) : Host.Outcome State Fault Refusal :=
  if s.encPhase = .idle then .next s
  else if s.encPhase = .unused then .next s
  else if 1 < s.encRemaining.toNat then .next (countDown s)
  else .next (advance s)

end Sys2Proof.Machine
end

