-- ==== Sys2Proof/Machine/FramePort.lean ====
section
/-! DEFINITION. The frame port: DRAIN (44_frame_port.md R105), the output ports (10_state.md R32), and the Consumer's
dispatch contract (R111). -/

namespace Sys2Proof.Machine

/-- DRAIN (R105): return `(frameReady, completedFrame)` and clear the flag, in one event. -/
def execDrain (s : State) : Host.Outcome State Fault Refusal :=
  .next (present (.drained s.frameReady s.completedFrame) (clearReady s))

/-- The output ports (10_state.md R32). `emit_duty` is EMIT_DUTY_ON or 0, a level whose encoding is open (D8). -/
structure Ports where
  emitOn : Bool
  emitDuty : Nat
  busy : Bool
  frameReady : Bool
  frameWord : Frame
  frameAddr : Address
  frameCmd : Command
  frameInv : Command
  frameInvExpected : Command
  checksumOk : Bool
deriving DecidableEq, Repr

/-- The ports' values between events (10_state.md R32, 41_encoder.md R65, 44_frame_port.md R108). -/
def ports (s : State) : Ports :=
  { emitOn := s.emitOn
    emitDuty := if s.emitOn then Config.emitDutyOn else 0
    busy := busy s
    frameReady := s.frameReady
    frameWord := s.completedFrame
    frameAddr := frameAddress s.completedFrame
    frameCmd := frameCommand s.completedFrame
    frameInv := frameInverted s.completedFrame
    frameInvExpected := frameExpected s.completedFrame
    checksumOk := checksumOk s.completedFrame }

/-- What the Consumer does after a DRAIN (R111). -/
inductive ConsumerAction where
  /-- Step 1: no effect. -/
  | noEffect
  /-- Step 3: `onValidHit(address, command)`. -/
  | validHit (address : Address) (command : Command)
  /-- Step 4: `onChecksumFailure(command, invertedReceived, invertedExpected)`; a Consumer may omit the call. -/
  | checksumFailure (command received expected : Command)
deriving DecidableEq, Repr

/-- The Consumer's dispatch contract for the pair a DRAIN returned (R111). It is the Consumer's, outside the block. -/
def consumerAction (ready : Bool) (F : Frame) : ConsumerAction :=
  if ready then
    if checksumOk F then .validHit (frameAddress F) (frameCommand F)
    else .checksumFailure (frameCommand F) (frameInverted F) (frameExpected F)
  else .noEffect

end Sys2Proof.Machine
end

