-- ==== Sys2Proof/Machine/ResetControl.lean ====
section
/-! DEFINITION. RESET (70_reset_and_hazards.md R133). -/

namespace Sys2Proof.Machine

/-- Every state element to its reset value; `refused` is not changed, and no `tx_done` is signalled (R133, R135).
What the environment has been given and has still to offer is not the block's (log 6, 12). -/
def resetElements (s : State) : State :=
  { s with
    decState := .awaitingStart
    lastEdgeTimestamp := 0#32
    bitsAccumulated := 0#6
    partialFrame := 0#32
    completedFrame := 0#32
    frameReady := false
    encPhase := .idle
    encKind := .fullFrame
    encBit := 0#5
    encRemaining := 0#14
    encFrame := 0#32
    emitOn := false }

/-- RESET (R133). -/
def execReset (s : State) : Host.Outcome State Fault Refusal := .next (resetElements s)

end Sys2Proof.Machine
end

