-- ==== Sys2Proof/Machine/Dispatch.lean ====
section
/-! DEFINITION. Which meaning each event has: one arm for each row of spec/opcode_table.json. -/

namespace Sys2Proof.Machine

def exec (i : Instr) (s : State) : Host.Outcome State Fault Refusal :=
  match i with
  | .edgeFall now => Sys2Proof.Machine.execEdgeFall now s
  | .edgeRise now => Sys2Proof.Machine.execEdgeRise now s
  | .txFrame address command => Sys2Proof.Machine.execTxFrame address command s
  | .txRepeat => Sys2Proof.Machine.execTxRepeat s
  | .tick => Sys2Proof.Machine.execTick s
  | .drain => Sys2Proof.Machine.execDrain s
  | .reset => Sys2Proof.Machine.execReset s

end Sys2Proof.Machine
end

