-- ==== Sys2Proof/Machine/Step.lean ====
section
/-! DEFINITION. One step: the schedule's next turn (30_encoding.md R62, 60_exceptions.md R123), and a run of events. -/

namespace Sys2Proof.Machine

/-- One turn. With no turn left the state is kept (60_exceptions.md R131: "nothing changes without an event"). An agent
with nothing to offer loses its turn. A word that spells no operation is taken and refused (30_encoding.md R56). A held
event stays its agent's next one (41_encoder.md R73); any other is taken from its agent and executed. -/
def step (s : State) : Host.Outcome State Fault Refusal :=
  match offered s with
  | .quiet => .next s
  | .absent => .next (passTurn s)
  | .word a w =>
    match decode w with
    | .error _ => .next (refuseWord (takeWord a s))
    | .ok i => if held i s then exec i (passTurn s) else exec i (takeWord a s)

/-- `s` with the opcode-table word first in its agent's queue and its agent's turn first, so that the next step runs it
(log 12). Nothing else is changed. -/
def State.withFetchWord (s : State) (nbits w : Nat) : State :=
  { s with inputs := offerFirst (agentOfWord (tableWord nbits w)) (tableWord nbits w) s.inputs }

/-- A list of events taken one after the other, in that total order (30_encoding.md R62). -/
def runEvents : List Instr → State → Host.Outcome State Fault Refusal
  | [], s => .next s
  | i :: is, s =>
    match exec i s with
    | .next t => runEvents is t
    | .fault r => .fault r
    | .refused r => .refused r

end Sys2Proof.Machine
end

