-- ==== Sys2Proof/Machine/Waveform.lean ====
section
/-! DEFINITION. The wire format (30_encoding.md R60, 41_encoder.md R70, R71), the events an ideal detector makes of a
waveform (R61), the busy times (R72), and the pseudo-instructions over them (R59). -/

namespace Sys2Proof.Machine

/-- A segment: one interval of constant emitter level, `(ON, d)` or `(OFF, d)` (00_scope.md glossary). -/
structure Segment where
  on : Bool
  micros : Nat
deriving DecidableEq, Repr

/-- Bit `i` of a frame on the wire: a mark, then the space that encodes it (R60). -/
def bitSegments (F : Frame) (i : Nat) : List Segment :=
  [⟨true, Config.pulse⟩, ⟨false, bitSpaceMicros (F.getLsbD i)⟩]

/-- A full frame on the wire: leading mark and space, bits 0 to 31, stop mark, then idle (R60, R70). -/
def frameSegments (F : Frame) : List Segment :=
  [⟨true, Config.leadingPulse⟩, ⟨false, Config.leadingSpace⟩]
    ++ (List.range 32).flatMap (bitSegments F)
    ++ [⟨true, Config.pulse⟩]

/-- A repeat code on the wire: mark, space, stop mark, then idle (R60, R71). -/
def repeatSegments : List Segment :=
  [⟨true, Config.leadingPulse⟩, ⟨false, Config.repeatSpace⟩, ⟨true, Config.pulse⟩]

/-- How long a waveform lasts. -/
def segmentsMicros (segments : List Segment) : Nat := (segments.map Segment.micros).sum

/-- The emitter level `k` microseconds into a waveform; off when it is over. -/
def levelAt : List Segment → Nat → Bool
  | [], _ => false
  | g :: gs, k => if k < g.micros then g.on else levelAt gs (k - g.micros)

/-- `popcount` (00_scope.md R8). -/
def popcount {n : Nat} (v : BitVec n) : Nat := ((List.range n).filter fun i => v.getLsbD i).length

/-- T_frame(F), the busy time of a full frame in TICKs (41_encoder.md R72). -/
def frameTicks (F : Frame) : Nat := 49900 + 1130 * popcount F

/-- T_repeat, the busy time of a repeat code in TICKs (41_encoder.md R72). -/
def repeatTicks : Nat := 11810

/-- What an ideal detector makes of a waveform that starts at `t`: a FALL at the start of every mark and a RISE at its
end, timestamps modulo 2^32 (R61). -/
def edgesOf : Timestamp → List Segment → List Instr
  | _, [] => []
  | t, g :: gs =>
    (if g.on then [.edgeFall t, .edgeRise (t + BitVec.ofNat 32 g.micros)] else [])
      ++ edgesOf (t + BitVec.ofNat 32 g.micros) gs

/-- `TICKS <n>` (R59). -/
def ticks (n : Nat) : List Instr := List.replicate n .tick

/-- `MARK <t>, <w>` (R59). -/
def markEvents (t w : Nat) : List Instr := [.edgeFall (BitVec.ofNat 32 t), .edgeRise (BitVec.ofNat 32 (t + w))]

/-- `NECFRAME <t0>, <F>` (R59). -/
def necFrame (t0 : Timestamp) (F : Frame) : List Instr := edgesOf t0 (frameSegments F)

/-- `NECREPEAT <t0>` (R59). -/
def necRepeat (t0 : Timestamp) : List Instr := edgesOf t0 repeatSegments

end Sys2Proof.Machine
end

