-- ==== Sys2Proof/Machine/Assembler.lean ====
section
/-! DEFINITION. The assembler syntax (30_encoding.md R58) and the pseudo-instructions (R59): from a line of text to the
event words it stands for. A text is a list of characters. -/

namespace Sys2Proof.Machine

/-- The events a line expands to (R58, R59), its operands at their fields' widths. -/
def expandLine : Line → List Instr
  | .fall ts => [.edgeFall (BitVec.ofNat 32 ts)]
  | .rise ts => [.edgeRise (BitVec.ofNat 32 ts)]
  | .tx address command => [.txFrame (BitVec.ofNat 16 address) (BitVec.ofNat 8 command)]
  | .txr => [.txRepeat]
  | .tick => [.tick]
  | .drain => [.drain]
  | .reset => [.reset]
  | .ticks n => ticks n
  | .mark t w => markEvents t w
  | .necFrame t0 F => necFrame (BitVec.ofNat 32 t0) (BitVec.ofNat 32 F)
  | .necRepeat t0 => necRepeat (BitVec.ofNat 32 t0)

/-- The words of a line; a line whose operand does not fit "is rejected by the assembler and produces no word" (R58). -/
def assembleLine (l : Line) : Option (List EventWord) :=
  if l.wellFormed then some ((expandLine l).map encode) else none

/-- A digit's value, decimal or hexadecimal, in either case of letter (DESIGN CHOICE, log 15). -/
def digitValue (c : Char) : Nat :=
  if '0' ≤ c ∧ c ≤ '9' then c.toNat - '0'.toNat
  else if 'a' ≤ c ∧ c ≤ 'f' then c.toNat - 'a'.toNat + 10
  else if 'A' ≤ c ∧ c ≤ 'F' then c.toNat - 'A'.toNat + 10
  else 16

/-- A nonempty list of digits in the given base. -/
def readDigits (base : Nat) (cs : List Char) : Option Nat :=
  if cs.isEmpty || cs.any (fun c => decide (base ≤ digitValue c)) then none
  else some (cs.foldl (fun n c => n * base + digitValue c) 0)

/-- "Numbers are decimal, or hexadecimal with `0x`" (R58). -/
def readNumber (cs : List Char) : Option Nat :=
  match cs with
  | '0' :: 'x' :: hex => readDigits 16 hex
  | _ => readDigits 10 cs

/-- The line without its comment: "`;` starts a comment" (R58). -/
def withoutComment (cs : List Char) : List Char := cs.takeWhile (fun c => c != ';')

/-- Split at blanks; a comma is a token of its own. `word` holds the letters of the token being read, last first. -/
def tokensFrom (word : List Char) : List Char → List (List Char)
  | [] => if word.isEmpty then [] else [word.reverse]
  | c :: cs =>
    let done := if word.isEmpty then [] else [word.reverse]
    if c == ',' then done ++ [[',']] ++ tokensFrom [] cs
    else if c == ' ' || c == '\t' then done ++ tokensFrom [] cs
    else tokensFrom (c :: word) cs

/-- The tokens of one line. -/
def lineTokens (cs : List Char) : List (List Char) := tokensFrom [] (withoutComment cs)

/-- What a line of text is: nothing (blank or comment only), a line with its numbers, or none where it is not of the
syntax (R58, R59), which rejects it (DESIGN CHOICE, log 15). -/
def parseLine (cs : List Char) : Option (Option Line) :=
  match lineTokens cs with
  | [] => some none
  | [op] =>
    if op = ['T', 'X', 'R'] then some (some .txr)
    else if op = ['T', 'I', 'C', 'K'] then some (some .tick)
    else if op = ['D', 'R', 'A', 'I', 'N'] then some (some .drain)
    else if op = ['R', 'E', 'S', 'E', 'T'] then some (some .reset)
    else none
  | [op, x] =>
    (readNumber x).bind fun n =>
      if op = ['F', 'A', 'L', 'L'] then some (some (.fall n))
      else if op = ['R', 'I', 'S', 'E'] then some (some (.rise n))
      else if op = ['T', 'I', 'C', 'K', 'S'] then some (some (.ticks n))
      else if op = ['N', 'E', 'C', 'R', 'E', 'P', 'E', 'A', 'T'] then some (some (.necRepeat n))
      else none
  | [op, x, comma, y] =>
    if comma = [','] then
      (readNumber x).bind fun m => (readNumber y).bind fun n =>
        if op = ['T', 'X'] then some (some (.tx m n))
        else if op = ['M', 'A', 'R', 'K'] then some (some (.mark m n))
        else if op = ['N', 'E', 'C', 'F', 'R', 'A', 'M', 'E'] then some (some (.necFrame m n))
        else none
    else none
  | _ => none

/-- The words of a line of text, none where it is rejected. A blank line gives no word. -/
def assembleText (cs : List Char) : Option (List EventWord) :=
  match parseLine cs with
  | none => none
  | some none => some []
  | some (some l) => assembleLine l

/-- The words of a stimulus program, one event per line (R58, R62). One rejected line rejects the whole program:
R58 says only that the rejected line produces no word (DESIGN CHOICE, log 15). -/
def assembleProgram : List (List Char) → Option (List EventWord)
  | [] => some []
  | l :: ls => (assembleText l).bind fun ws => (assembleProgram ls).map fun rest => ws ++ rest

end Sys2Proof.Machine
end

