-- ==== Sys2Proof/Machine/ErrorTaxonomy.lean ====
section
/-! DEFINITION. The error conditions E1 to E7 (60_exceptions.md R116). No register holds them and no port shows them:
"They name the cases for tests and models only". -/

namespace Sys2Proof.Machine

/-- The codes of R116. -/
inductive ErrorCode where
  /-- E1 TIMING: in RECEIVING_BITS, an INVALID or LEADING duration. -/
  | timing
  /-- E2 REPEAT_ABORT: in RECEIVING_BITS, a REPEAT duration. -/
  | repeatAbort
  /-- E3 NOISE: in AWAITING_START, anything but LEADING. -/
  | noise
  /-- E4 CHECKSUM: a drained frame fails R107. -/
  | checksum
  /-- E5 OVERRUN: a completion while `frameReady = 1`. -/
  | overrun
  /-- E6 WRAP: a real interval of 2^32 microseconds or more; "nobody" detects it, so no function here answers it. -/
  | wrap
  /-- E7 REFUSED: a word that spells no operation. -/
  | refused
deriving DecidableEq, Repr

/-- Does this symbol complete a frame in this state (43_decoder.md R98)? -/
def completesFrame (sym : Symbol) (s : State) : Bool :=
  match s.decState, sym with
  | .receivingBits, .zero => readCount s + 1#6 == 32#6
  | .receivingBits, .one => readCount s + 1#6 == 32#6
  | _, _ => false

/-- The conditions a falling edge with this symbol meets. -/
def symbolErrors (sym : Symbol) (s : State) : List ErrorCode :=
  match s.decState, sym with
  | .awaitingStart, .leading => []
  | .awaitingStart, _ => [.noise]
  | .receivingBits, .invalid => [.timing]
  | .receivingBits, .leading => [.timing]
  | .receivingBits, .repeated => [.repeatAbort]
  | .receivingBits, _ => if completesFrame sym s && s.frameReady then [.overrun] else []

/-- The conditions an event meets in a state (R116). -/
def eventErrors (i : Instr) (s : State) : List ErrorCode :=
  match i with
  | .edgeFall now => symbolErrors (classify (edgeDuration now s.lastEdgeTimestamp)) s
  | .edgeRise _ => []
  | .txFrame _ _ => []
  | .txRepeat => []
  | .tick => []
  | .drain => if s.frameReady && !checksumOk s.completedFrame then [.checksum] else []
  | .reset => []

/-- The conditions an event word meets, E7 for one that spells no operation (R116, 30_encoding.md R56). -/
def wordErrors (w : EventWord) (s : State) : List ErrorCode :=
  match decode w with
  | .ok i => eventErrors i s
  | .error _ => [.refused]

/-- Does this event complete a frame (43_decoder.md R98)? -/
def completes (i : Instr) (s : State) : Bool :=
  match i with
  | .edgeFall now => completesFrame (classify (edgeDuration now s.lastEdgeTimestamp)) s
  | .edgeRise _ => false
  | .txFrame _ _ => false
  | .txRepeat => false
  | .tick => false
  | .drain => false
  | .reset => false

end Sys2Proof.Machine
end

