-- ==== Sys2Proof/Safety.lean ====
section
/-! DEFINITION. The terms in which claims about runs are stated: the state invariant that rules out what no run
reaches (10_state.md R16, R24, R25, R26), the premise `refused = 0` (R29), and the environment's duties
(60_exceptions.md R127, 70_reset_and_hazards.md section 3). -/

namespace Sys2Proof.Machine

/-- Between events the count is 0 to 31, and 0 in AWAITING_START (10_state.md R16); while a frame is received, no bit at
or above the count is set, since the frame was cleared when it started (R17). -/
abbrev DecoderInv (s : State) : Prop :=
  s.bitsAccumulated.toNat < 32
    ∧ (s.decState = .awaitingStart → s.bitsAccumulated = 0#6)
    ∧ (s.decState = .receivingBits → s.partialFrame.toNat < 2 ^ s.bitsAccumulated.toNat)

/-- Phase code 7 never occurs (R24); `emit_on` is the phase's level (R26); `enc_remaining` is 0 in IDLE and from 1 to
the phase's duration elsewhere (R25). -/
abbrev SequencerInv (s : State) : Prop :=
  s.encPhase ≠ .unused
    ∧ s.emitOn = phaseLevel s.encPhase
    ∧ (s.encPhase = .idle → s.encRemaining = 0#14)
    ∧ (s.encPhase ≠ .idle →
        1 ≤ s.encRemaining.toNat ∧ s.encRemaining.toNat ≤ phaseMicros s.encPhase s.encFrame s.encBit)

/-- The kind fits the phase, the bit index is 0 until the bits begin, and what a full frame sends is a valid frame
(41_encoder.md R64, R66; 00_scope.md R11). -/
abbrev TransmissionInv (s : State) : Prop :=
  (s.encPhase = .leadSpace ∨ s.encPhase = .bitMark ∨ s.encPhase = .bitSpace → s.encKind = .fullFrame)
    ∧ (s.encPhase = .repeatSpace → s.encKind = .repeatCode)
    ∧ (s.encPhase = .leadMark ∨ s.encPhase = .leadSpace ∨ s.encPhase = .repeatSpace → s.encBit = 0#5)
    ∧ (s.encPhase ≠ .idle → s.encKind = .fullFrame → checksumOk s.encFrame = true)

/-- What every state between the events of a run satisfies. -/
abbrev StateInv (s : State) : Prop := DecoderInv s ∧ SequencerInv s ∧ TransmissionInv s

/-- The premise of a claim about a run: no word was refused (10_state.md R29). -/
abbrev NothingRefused (s : State) : Prop := s.refused = false

/-- No event of the list completes a frame, when run from this state. -/
def NoCompletion : List Instr → State → Prop
  | [], _ => True
  | i :: is, s =>
    completes i s = false ∧ match exec i s with
      | .next t => NoCompletion is t
      | .fault _ => True
      | .refused _ => True

/-- No event of the list is held when its turn comes, run from this state (41_encoder.md R73). -/
def NoneHeld : List Instr → State → Prop
  | [], _ => True
  | i :: is, s =>
    held i s = false ∧ match exec i s with
      | .next t => NoneHeld is t
      | .fault _ => True
      | .refused _ => True

/-- Is the event a request to transmit? -/
def isRequest : Instr → Bool
  | .edgeFall _ => false
  | .edgeRise _ => false
  | .txFrame _ _ => true
  | .txRepeat => true
  | .tick => false
  | .drain => false
  | .reset => false

/-- How many TX_FRAME and TX_REPEAT events of the list are accepted, run from this state (41_encoder.md R73, R74). -/
def acceptedRequests : List Instr → State → Nat
  | [], _ => 0
  | i :: is, s =>
    (if isRequest i && !busy s then 1 else 0) + match exec i s with
      | .next t => acceptedRequests is t
      | .fault _ => 0
      | .refused _ => 0

/-- How many times `tx_done` has been signalled (41_encoder.md R74). -/
def txDoneCount (s : State) : Nat := s.outputs.countP (fun o => o == .txDone)

/-- An edge with the unwrapped time at which it happens, in microseconds. -/
structure TimedEdge where
  falling : Bool
  time : Nat
deriving DecidableEq, Repr

/-- The event a timed edge is delivered as: its timestamp is the low 32 bits of its time (60_exceptions.md R128). -/
def TimedEdge.event (e : TimedEdge) : Instr :=
  if e.falling then .edgeFall (BitVec.ofNat 32 e.time) else .edgeRise (BitVec.ofNat 32 e.time)

/-- The edges come in the order of their times, none before `start` (70_reset_and_hazards.md R141, R143), and every
interval between neighbours is shorter than 2^32 microseconds (R140). -/
def EdgesInOrder : Nat → List TimedEdge → Prop
  | _, [] => True
  | start, e :: es => start ≤ e.time ∧ e.time - start < 2 ^ 32 ∧ EdgesInOrder e.time es

/-- The time of the last edge of the list, `start` where there is none. -/
def lastTime : Nat → List TimedEdge → Nat
  | start, [] => start
  | _, e :: es => lastTime e.time es

/-- Every word an agent has to offer is one of its own events, or no event at all (60_exceptions.md R127). The block
does not check it (R124, log 3). -/
def OwnEvents (q : Inputs) : Prop :=
  ∀ a, ∀ w ∈ queueOf a q, ∀ i, decode w = .ok i → agentOf i = a

/-- The part of the state the decoder and its mailbox own (10_state.md R14 to R19). -/
structure DecoderPart where
  decState : DecState
  lastEdgeTimestamp : Timestamp
  bitsAccumulated : BitVec 6
  partialFrame : Frame
  completedFrame : Frame
  frameReady : Bool
  freeDraws : Nat
deriving DecidableEq, Repr

/-- The decoder's part of a state. -/
def decoderPart (s : State) : DecoderPart :=
  { decState := s.decState
    lastEdgeTimestamp := s.lastEdgeTimestamp
    bitsAccumulated := s.bitsAccumulated
    partialFrame := s.partialFrame
    completedFrame := s.completedFrame
    frameReady := s.frameReady
    freeDraws := s.freeDraws }

/-- The part of the state the encoder owns (10_state.md R21 to R26). -/
structure EncoderPart where
  encPhase : EncPhase
  encKind : EncKind
  encBit : BitVec 5
  encRemaining : BitVec 14
  encFrame : Frame
  emitOn : Bool
deriving DecidableEq, Repr

/-- The encoder's part of a state. -/
def encoderPart (s : State) : EncoderPart :=
  { encPhase := s.encPhase
    encKind := s.encKind
    encBit := s.encBit
    encRemaining := s.encRemaining
    encFrame := s.encFrame
    emitOn := s.emitOn }

end Sys2Proof.Machine
end

