-- ==== Sys2Proof/Certificates/Slice0/Obligations.lean ====
section
/-! DEFINITION. The statements for the provers. A docstring names the rule of the spec a statement formalises, or the
sections it rests on where the rule is an inference or a choice the spec marks as its own. -/

open Sys2Proof Sys2Proof.Machine

/-! ### Encoding -/

/-- Decoding an event's word gives the event back, every operand at every value (30_encoding.md R48 to R54; the event
word is the spec's own decision D2). -/
def Obligations.DecodeOfEncodeIsTheEvent : Prop := ∀ i : Instr, decode (encode i) = .ok i

/-- A word that decodes is the word of the event it decodes to: no two words spell one event (30_encoding.md R54, R57). -/
def Obligations.EncodeOfDecodedIsTheWord : Prop :=
  ∀ (w : EventWord) (i : Instr), decode w = .ok i → encode i = w

/-- The decoder selects a mnemonic exactly when the word matches its row of the pattern table, and no word matches two
rows (30_encoding.md R55; the disjointness is the spec's inference). -/
def Obligations.PatternTableSelectsTheMnemonic : Prop :=
  (∀ w : EventWord, ∀ r ∈ patternTable,
      (w &&& r.mask = r.value ↔ ∃ i, decode w = .ok i ∧ i.mnemonic = r.mnemonic))
    ∧ (∀ w : EventWord, ∀ r ∈ patternTable, ∀ r' ∈ patternTable,
        w &&& r.mask = r.value → w &&& r'.mask = r'.value → r = r')

/-- Which words are Invalid, and why, in plain arithmetic on the word (30_encoding.md R54, R56; decision D3). -/
def Obligations.InvalidWordsAreRefusedByName : Prop :=
  ∀ w : EventWord,
    (decode w = .error .reservedOp ↔ w.toNat / 2 ^ 60 = 0 ∨ 8 ≤ w.toNat / 2 ^ 60)
    ∧ (decode w = .error .reservedBits ↔
        ((w.toNat / 2 ^ 60 = 1 ∨ w.toNat / 2 ^ 60 = 2) ∧ w.toNat / 2 ^ 32 % 2 ^ 28 ≠ 0)
        ∨ (w.toNat / 2 ^ 60 = 3 ∧ w.toNat / 2 ^ 24 % 2 ^ 36 ≠ 0)
        ∨ (4 ≤ w.toNat / 2 ^ 60 ∧ w.toNat / 2 ^ 60 ≤ 7 ∧ w.toNat % 2 ^ 60 ≠ 0))

/-- Words written out from the formats decode to their events (95_test_vectors.md V-ENC-1 to V-ENC-7, V-ENC-15). -/
def Obligations.SampleWordsDecode : Prop :=
  decode 0x1000000000001194 = .ok (.edgeFall 4500)
    ∧ decode 0x20000000FFFFFFFF = .ok (.edgeRise 0xFFFFFFFF)
    ∧ decode 0x3000000000991234 = .ok (.txFrame 0x1234 0x99)
    ∧ decode 0x30000000000000FF = .ok (.txFrame 0x00FF 0x00)
    ∧ decode 0x4000000000000000 = .ok .txRepeat
    ∧ decode 0x5000000000000000 = .ok .tick
    ∧ decode 0x6000000000000000 = .ok .drain
    ∧ decode 0x7000000000000000 = .ok .reset

/-- The assembler gives the words of the syntax table and rejects a line whose operand does not fit
(30_encoding.md R58, decision D26). -/
def Obligations.AssemblerGivesTheTablesWords : Prop :=
  (∀ ts, assembleLine (.fall ts) = if ts < 2 ^ 32 then some [BitVec.ofNat 64 (1 * 2 ^ 60 + ts)] else none)
    ∧ (∀ ts, assembleLine (.rise ts) = if ts < 2 ^ 32 then some [BitVec.ofNat 64 (2 * 2 ^ 60 + ts)] else none)
    ∧ (∀ a c, assembleLine (.tx a c) =
        if a < 2 ^ 16 ∧ c < 2 ^ 8 then some [BitVec.ofNat 64 (3 * 2 ^ 60 + c * 2 ^ 16 + a)] else none)
    ∧ assembleLine .txr = some [0x4000000000000000]
    ∧ assembleLine .tick = some [0x5000000000000000]
    ∧ assembleLine .drain = some [0x6000000000000000]
    ∧ assembleLine .reset = some [0x7000000000000000]
    ∧ (∀ n, assembleLine (.ticks n) = some (List.replicate n 0x5000000000000000))

/-! ### The step: offers, holds, refusals -/

/-- A step runs the event that the agent whose turn it is offers, when it is not held: `exec` of it, at the state whose
turn is over and whose word is taken (30_encoding.md R62, 00_scope.md R10; queues and schedule are the model's, log 1). -/
def Obligations.StepRunsTheOfferedEvent : Prop :=
  ∀ (s : State) (a : Agent) (turns : List Agent) (w : EventWord) (ws : List EventWord) (i : Instr),
    s.inputs.schedule = a :: turns → queueOf a s.inputs = w :: ws → decode w = .ok i → held i s = false →
    step s = exec i { s with inputs := setQueue a ws { s.inputs with schedule := turns } }

/-- A TX_FRAME or TX_REPEAT offered while busy is held: it changes no state and stays its agent's next word; the TICK
that ends STOP_MARK or a RESET lifts the hold, and no other event does (41_encoder.md R73, decision D7). That the step
uses up the agent's turn is the model's choice (log 2), on queues that are the model's (log 1); how the word stays its
agent's next one is inferred (log 4). -/
def Obligations.RequestsAreHeldWhileBusy : Prop :=
  ∀ s : State, busy s = true →
    (∀ a c, exec (.txFrame a c) s = .next s)
    ∧ exec .txRepeat s = .next s
    ∧ (∀ (a : Agent) (turns : List Agent) (w : EventWord) (ws : List EventWord) (i : Instr),
        s.inputs.schedule = a :: turns → queueOf a s.inputs = w :: ws → decode w = .ok i → isRequest i = true →
        step s = .next { s with inputs := { s.inputs with schedule := turns } })
    ∧ (∀ t, (exec .reset s = .next t
          ∨ (s.encPhase = .stopMark ∧ s.encRemaining.toNat ≤ 1 ∧ exec .tick s = .next t)) →
        busy t = false ∧ ∀ i, held i t = false)
    ∧ (∀ i t, exec i s = .next t → busy t = false →
        i = .reset ∨ (i = .tick ∧ s.encPhase = .stopMark ∧ s.encRemaining.toNat ≤ 1))

/-- Without an offered word nothing of the block changes: with no turn left the state is kept, and an agent with nothing
to offer only loses its turn (60_exceptions.md R131, decision D18; log 2). -/
def Obligations.StepWithoutAnEventKeepsTheBlock : Prop :=
  (∀ s : State, s.inputs.schedule = [] → step s = .next s)
    ∧ (∀ (s : State) (a : Agent) (turns : List Agent), s.inputs.schedule = a :: turns → queueOf a s.inputs = [] →
        step s = .next { s with inputs := { s.inputs with schedule := turns } })

/-- A word that spells no operation sets `refused` and changes nothing else of the block; the word itself is taken
(30_encoding.md R56, decision D3; that it is taken is log 5). -/
def Obligations.RefusedWordOnlySetsTheMark : Prop :=
  ∀ (s : State) (a : Agent) (turns : List Agent) (w : EventWord) (ws : List EventWord) (e : DecodeError),
    s.inputs.schedule = a :: turns → queueOf a s.inputs = w :: ws → decode w = .error e →
    step s = .next { s with refused := true, inputs := setQueue a ws { s.inputs with schedule := turns } }

/-- After a step `refused` is set exactly if it was before or the offered word spells no operation: it is never cleared,
not even by RESET (10_state.md R29). -/
def Obligations.RefusedMarkIsSticky : Prop :=
  ∀ s t : State, step s = .next t →
    (t.refused = true ↔ s.refused = true ∨ ∃ a w e, offered s = .word a w ∧ decode w = .error e)

/-- A step only takes turns and words from the front: each agent's order is kept (30_encoding.md R62, decision D1). -/
def Obligations.EachAgentsOrderIsKept : Prop :=
  ∀ s t : State, step s = .next t →
    t.inputs.schedule = s.inputs.schedule.tail
    ∧ ∀ a, queueOf a t.inputs = queueOf a s.inputs
        ∨ (queueOf a t.inputs = (queueOf a s.inputs).tail ∧ ∃ w, offered s = .word a w)

/-- Offered a list of events none of which is held, the machine's steps are the events' transitions in exactly that
order (00_scope.md R10, 30_encoding.md R62; the inputs are the model's, log 1). -/
def Obligations.StepsFollowTheTotalOrder : Prop :=
  ∀ (events : List Instr) (s : State), NoneHeld events s →
    Host.Core.run Sys2Proof.core events.length ({ s with inputs := inputsOf events } : State)
      = runEvents events { s with inputs := Inputs.empty }

/-- Every step answers a next state: the block raises no exception and refuses no event (60_exceptions.md R115). -/
def Obligations.EveryStepAnswersANextState : Prop := ∀ s : State, ∃ t, step s = .next t

/-- A refusal stays visible to every later claim: a run that ends with nothing refused had nothing refused when it
began (30_encoding.md R56, 10_state.md R29; decision D3). -/
def Obligations.RefusalStaysVisible : Prop :=
  ∀ (n : Nat) (s t : State), Host.Core.run Sys2Proof.core n s = .next t → NothingRefused t → NothingRefused s

/-! ### Invariants -/

/-- Agents that offer only their own events go on doing so: a step hands no word from one agent to another
(60_exceptions.md R127; the queues are the model's, log 1). -/
def Obligations.StepKeepsAgentsOwnEvents : Prop :=
  ∀ s t : State, OwnEvents s.inputs → step s = .next t → OwnEvents t.inputs

/-- Every step keeps the state invariant: counts, phases, emitter and segment counter stay what 10_state.md R16, R17,
R24, R25 and R26 say they hold between events (inferences the spec marks as its own). -/
def Obligations.StepKeepsTheStateInvariant : Prop :=
  ∀ s t : State, StateInv s → step s = .next t → StateInv t

/-- The state after reset satisfies the state invariant. -/
def Obligations.ResetSatisfiesTheStateInvariant : Prop := StateInv State.reset

/-! ### The decoder -/

/-- EDGE_RISE, op 2 in format T, records its timestamp and changes nothing else (43_decoder.md R90). -/
def Obligations.RiseOnlyRecordsItsTimestamp : Prop :=
  ∀ (now : Timestamp) (s : State),
    decode (BitVec.ofNat 64 (2 * 2 ^ 60 + now.toNat)) = .ok (.edgeRise now)
    ∧ exec (.edgeRise now) s = .next { s with lastEdgeTimestamp := now }

/-- In AWAITING_START a LEADING duration, strictly between 4000 and 5000 modulo 2^32, starts a frame, and any other
changes nothing but `lastEdgeTimestamp` (43_decoder.md R93). -/
def Obligations.FallInAwaitingStart : Prop :=
  ∀ (now : Timestamp) (s : State) (d : Nat), s.decState = .awaitingStart →
    d = (now.toNat + 2 ^ 32 - s.lastEdgeTimestamp.toNat) % 2 ^ 32 →
    (4000 < d ∧ d < 5000 → exec (.edgeFall now) s = .next
        { s with decState := .receivingBits, bitsAccumulated := 0, partialFrame := 0, lastEdgeTimestamp := now })
    ∧ (¬ (4000 < d ∧ d < 5000) → exec (.edgeFall now) s = .next { s with lastEdgeTimestamp := now })

/-- In RECEIVING_BITS a ZERO or ONE duration writes bit `bitsAccumulated` of `partialFrame`, and either the count goes
up by one or, at 32 bits, the frame is published, whatever `frameReady` was and whatever the frame's checksum
(43_decoder.md R94, R95, R98). No count above 31 is ever reached (10_state.md R16), and no
claim may start from one (93_implementation_defined.md X4). -/
def Obligations.FallAppendsABitOrCompletes : Prop :=
  ∀ (now : Timestamp) (s : State) (d : Nat) (b : Bool), s.decState = .receivingBits →
    d = (now.toNat + 2 ^ 32 - s.lastEdgeTimestamp.toNat) % 2 ^ 32 →
    (b = false ∧ 400 < d ∧ d < 800) ∨ (b = true ∧ 1500 < d ∧ d < 1900) →
    s.bitsAccumulated.toNat < 32 →
    ∃ pf : Frame,
      (∀ j, j < 32 → pf.getLsbD j = if j = s.bitsAccumulated.toNat then b else s.partialFrame.getLsbD j)
      ∧ (s.bitsAccumulated.toNat < 31 → exec (.edgeFall now) s = .next
          { s with partialFrame := pf, bitsAccumulated := s.bitsAccumulated + 1, lastEdgeTimestamp := now })
      ∧ (s.bitsAccumulated.toNat = 31 → exec (.edgeFall now) s = .next
          { s with partialFrame := pf, completedFrame := pf, frameReady := true, decState := .awaitingStart,
                   bitsAccumulated := 0, lastEdgeTimestamp := now })

/-- In RECEIVING_BITS any duration outside the ZERO and ONE windows aborts: AWAITING_START, count 0, `partialFrame`
unchanged, nothing published (43_decoder.md R96, R97). -/
def Obligations.FallAbortsOnAnyOtherDuration : Prop :=
  ∀ (now : Timestamp) (s : State) (d : Nat), s.decState = .receivingBits →
    d = (now.toNat + 2 ^ 32 - s.lastEdgeTimestamp.toNat) % 2 ^ 32 →
    ¬ (400 < d ∧ d < 800) → ¬ (1500 < d ∧ d < 1900) →
    exec (.edgeFall now) s = .next
      { s with decState := .awaitingStart, bitsAccumulated := 0, lastEdgeTimestamp := now }

/-- The count never leaves 0 to 31: every event keeps it there. RESET, a LEADING in AWAITING_START and an abort set it
to 0 whatever it was, and leave a decoder that satisfies its invariant (93_implementation_defined.md X4, 10_state.md
R16, R17). -/
def Obligations.CountStaysReachable : Prop :=
  (∀ (i : Instr) (s t : State), s.bitsAccumulated.toNat ≤ 31 → exec i s = .next t →
      t.bitsAccumulated.toNat ≤ 31)
    ∧ ∀ (now : Timestamp) (s : State) (d : Nat),
      d = (now.toNat + 2 ^ 32 - s.lastEdgeTimestamp.toNat) % 2 ^ 32 →
      (∃ t, exec .reset s = .next t ∧ t.bitsAccumulated = 0 ∧ DecoderInv t)
      ∧ (s.decState = .awaitingStart → 4000 < d → d < 5000 →
          ∃ t, exec (.edgeFall now) s = .next t
            ∧ t.decState = .receivingBits ∧ t.bitsAccumulated = 0 ∧ DecoderInv t)
      ∧ (s.decState = .receivingBits → ¬ (400 < d ∧ d < 800) → ¬ (1500 < d ∧ d < 1900) →
          ∃ t, exec (.edgeFall now) s = .next t
            ∧ t.decState = .awaitingStart ∧ t.bitsAccumulated = 0 ∧ DecoderInv t)

/-- The partition of the durations into symbols (42_classifier.md R83, the spec's inference from R80). -/
def Obligations.ClassifierPartitionsTheDurations : Prop :=
  ∀ d : Timestamp,
    (d.toNat ≤ 400 → classify d = .invalid)
    ∧ (401 ≤ d.toNat → d.toNat ≤ 799 → classify d = .zero)
    ∧ (800 ≤ d.toNat → d.toNat ≤ 1500 → classify d = .invalid)
    ∧ (1501 ≤ d.toNat → d.toNat ≤ 1899 → classify d = .one)
    ∧ (1900 ≤ d.toNat → d.toNat ≤ 2000 → classify d = .invalid)
    ∧ (2001 ≤ d.toNat → d.toNat ≤ 2499 → classify d = .repeated)
    ∧ (2500 ≤ d.toNat → d.toNat ≤ 4000 → classify d = .invalid)
    ∧ (4001 ≤ d.toNat → d.toNat ≤ 4999 → classify d = .leading)
    ∧ (5000 ≤ d.toNat → classify d = .invalid)

/-- The comparator tree computes `classify`, and at most one of its hits is 1 (42_classifier.md R82, the spec's
inference). -/
def Obligations.ComparatorTreeIsTheClassifier : Prop :=
  ∀ d : Timestamp, comparatorSymbol d = classify d
    ∧ ((comparatorHits d).lead.toNat + (comparatorHits d).zero.toNat
        + (comparatorHits d).one.toNat + (comparatorHits d).rep.toNat ≤ 1)

/-- A timestamp `k` microseconds before the last one, 0 < k ≤ 2^32 - 5000, measures 2^32 - k and is INVALID
(70_reset_and_hazards.md R141, decision D24). -/
def Obligations.BackwardTimestampIsInvalid : Prop :=
  ∀ (last : Timestamp) (k : Nat), 0 < k → k ≤ 2 ^ 32 - 5000 →
    (edgeDuration (last - BitVec.ofNat 32 k) last).toNat = 2 ^ 32 - k
    ∧ classify (edgeDuration (last - BitVec.ofNat 32 k) last) = .invalid

/-- The decoder never measures a mark: after a RISE, what a FALL does depends on nothing older than that RISE's
timestamp (43_decoder.md R100, the spec's inference). -/
def Obligations.MarksAreNeverMeasured : Prop :=
  ∀ (s : State) (old rise fall : Timestamp),
    runEvents [.edgeRise rise, .edgeFall fall] { s with lastEdgeTimestamp := old }
      = runEvents [.edgeRise rise, .edgeFall fall] s

/-- Round trip: the ideal edges of any frame, interleaved with any events of other agents but RESET, and with no DRAIN
after the stop mark's FALL, leave that frame published, from any decoder state in which the idle before it is harmless
(43_decoder.md R102, the spec's inference). -/
def Obligations.EveryFrameIsReceived : Prop :=
  ∀ (s : State) (t0 : Timestamp) (F : Frame) (before after : List Instr) (stop : Timestamp),
    (before ++ .edgeFall stop :: after).filter (fun i => agentOf i == .detector) = necFrame t0 F →
    (∀ x, .edgeFall x ∉ after) → .drain ∉ after → .reset ∉ before → .reset ∉ after →
    ((s.decState = .awaitingStart ∧ classify (edgeDuration t0 s.lastEdgeTimestamp) ≠ .leading)
      ∨ (s.decState = .receivingBits ∧ classify (edgeDuration t0 s.lastEdgeTimestamp) ≠ .zero
          ∧ classify (edgeDuration t0 s.lastEdgeTimestamp) ≠ .one)) →
    ∃ t, runEvents (before ++ .edgeFall stop :: after) s = .next t
      ∧ t.completedFrame = F ∧ t.frameReady = true ∧ t.decState = .awaitingStart ∧ t.bitsAccumulated = 0
      ∧ t.lastEdgeTimestamp = t0 + BitVec.ofNat 32 (segmentsMicros (frameSegments F))

/-- The condition on the idle cannot be dropped: after an idle that classifies as LEADING in AWAITING_START, or as ZERO
or ONE in RECEIVING_BITS below 31 bits, the whole frame is lost (43_decoder.md R103, the spec's inference; the bound 31
is needed by R98, log 13). -/
def Obligations.MisreadIdleLosesTheFrame : Prop :=
  ∀ (s : State) (t0 : Timestamp) (F : Frame),
    ((s.decState = .awaitingStart ∧ classify (edgeDuration t0 s.lastEdgeTimestamp) = .leading)
      ∨ (s.decState = .receivingBits ∧ s.bitsAccumulated.toNat < 31
          ∧ (classify (edgeDuration t0 s.lastEdgeTimestamp) = .zero
              ∨ classify (edgeDuration t0 s.lastEdgeTimestamp) = .one))) →
    ∃ t, runEvents (necFrame t0 F) s = .next t
      ∧ t.completedFrame = s.completedFrame ∧ t.frameReady = s.frameReady
      ∧ t.decState = .awaitingStart ∧ t.bitsAccumulated = 0

/-- A repeat code leaves a decoder in AWAITING_START unchanged but for `lastEdgeTimestamp`, when the idle before it is
not taken for a leading space (43_decoder.md R101, the spec's inference; the condition is needed by R93, log 13). -/
def Obligations.RepeatCodeIsIgnored : Prop :=
  ∀ (s : State) (t0 : Timestamp), s.decState = .awaitingStart →
    classify (edgeDuration t0 s.lastEdgeTimestamp) ≠ .leading →
    runEvents (necRepeat t0) s = .next { s with lastEdgeTimestamp := t0 + 11810 }

/-- Between two completions at least 16833 microseconds pass: edges in order of their unwrapped times, from a completion
at `start`, that leave a frame ready end at `start + 16833` or later (43_decoder.md R153, the spec's inference). -/
def Obligations.CompletionsAreFarApart : Prop :=
  ∀ (s t : State) (start : Nat) (edges : List TimedEdge),
    s.decState = .awaitingStart → s.lastEdgeTimestamp = BitVec.ofNat 32 start → s.frameReady = false →
    EdgesInOrder start edges →
    runEvents (edges.map TimedEdge.event) s = .next t → t.frameReady = true →
    start + 16833 ≤ lastTime start edges

/-- What the error conditions do to the decoder: TIMING and REPEAT_ABORT abort and publish nothing, NOISE changes only
`lastEdgeTimestamp`, OVERRUN overwrites the undrained frame (60_exceptions.md R116, decision D18). -/
def Obligations.ErrorConditionsHaveTheirEffects : Prop :=
  ∀ (now : Timestamp) (s t : State), exec (.edgeFall now) s = .next t →
    (.timing ∈ eventErrors (.edgeFall now) s ∨ .repeatAbort ∈ eventErrors (.edgeFall now) s →
      t = { s with decState := .awaitingStart, bitsAccumulated := 0, lastEdgeTimestamp := now })
    ∧ (.noise ∈ eventErrors (.edgeFall now) s → t = { s with lastEdgeTimestamp := now })
    ∧ (.overrun ∈ eventErrors (.edgeFall now) s →
        s.frameReady = true ∧ t.frameReady = true ∧ t.completedFrame = t.partialFrame
        ∧ t.decState = .awaitingStart ∧ t.bitsAccumulated = 0)

/-! ### The encoder -/

/-- TX_FRAME, op 3 in format A, loads from IDLE the frame, in plain arithmetic on its operands, and enters the leading
mark; while busy it is held (41_encoder.md R66). -/
def Obligations.FrameRequestStartsTransmission : Prop :=
  ∀ (a : Address) (c : Command) (s : State),
    decode (BitVec.ofNat 64 (3 * 2 ^ 60 + c.toNat * 2 ^ 16 + a.toNat)) = .ok (.txFrame a c)
    ∧ (busy s = false → exec (.txFrame a c) s = .next
      { s with
        encFrame := BitVec.ofNat 32 (a.toNat + c.toNat * 2 ^ 16 + (255 - c.toNat) * 2 ^ 24)
        encKind := .fullFrame, encBit := 0, encPhase := .leadMark, emitOn := true, encRemaining := 9000 })
    ∧ (busy s = true → exec (.txFrame a c) s = .next s)

/-- Every frame TX_FRAME writes carries its operands in their fields and is valid (00_scope.md R11, R12;
41_encoder.md R66, whose corner case on validity is the spec's inference). -/
def Obligations.AssembledFrameIsValid : Prop :=
  ∀ (a : Address) (c : Command),
    frameAddress (assembleFrame a c) = a ∧ frameCommand (assembleFrame a c) = c
    ∧ frameInverted (assembleFrame a c) = ~~~c ∧ checksumOk (assembleFrame a c) = true

/-- TX_REPEAT, op 4 in format N, enters from IDLE the leading mark of a repeat code and leaves `enc_frame` alone; while
busy it is held (41_encoder.md R67). -/
def Obligations.RepeatRequestStartsTransmission : Prop :=
  ∀ s : State,
    decode 0x4000000000000000 = .ok .txRepeat
    ∧ (busy s = false → exec .txRepeat s = .next
      { s with encKind := .repeatCode, encBit := 0, encPhase := .leadMark, emitOn := true, encRemaining := 9000 })
    ∧ (busy s = true → exec .txRepeat s = .next s)

/-- TICK, op 5 in format N: no change in IDLE, one microsecond less in a running segment, and at a segment's end the next
row of the table (41_encoder.md R68, R69). -/
def Obligations.TickFollowsTheTable : Prop :=
  ∀ s : State,
    decode 0x5000000000000000 = .ok .tick
    ∧ (s.encPhase = .idle → exec .tick s = .next s)
    ∧ (s.encPhase ≠ .idle → s.encPhase ≠ .unused → 1 < s.encRemaining.toNat →
        exec .tick s = .next { s with encRemaining := s.encRemaining - 1 })
    ∧ (s.encRemaining.toNat ≤ 1 →
        (s.encPhase = .leadMark → s.encKind = .fullFrame → exec .tick s = .next
          { s with encPhase := .leadSpace, emitOn := false, encRemaining := 4500 })
        ∧ (s.encPhase = .leadMark → s.encKind = .repeatCode → exec .tick s = .next
          { s with encPhase := .repeatSpace, emitOn := false, encRemaining := 2250 })
        ∧ (s.encPhase = .leadSpace → exec .tick s = .next
          { s with encBit := 0, encPhase := .bitMark, emitOn := true, encRemaining := 560 })
        ∧ (s.encPhase = .repeatSpace → exec .tick s = .next
          { s with encPhase := .stopMark, emitOn := true, encRemaining := 560 })
        ∧ (s.encPhase = .bitMark → exec .tick s = .next
          { s with encPhase := .bitSpace, emitOn := false,
                   encRemaining := if s.encFrame.getLsbD s.encBit.toNat then 1690 else 560 })
        ∧ (s.encPhase = .bitSpace → s.encBit = 31 → exec .tick s = .next
          { s with encPhase := .stopMark, emitOn := true, encRemaining := 560 })
        ∧ (s.encPhase = .bitSpace → s.encBit ≠ 31 → exec .tick s = .next
          { s with encBit := s.encBit + 1, encPhase := .bitMark, emitOn := true, encRemaining := 560 })
        ∧ (s.encPhase = .stopMark → exec .tick s = .next
          { s with encPhase := .idle, emitOn := false, encRemaining := 0, outputs := .txDone :: s.outputs }))

/-- Phase code 7 is stuck: busy, TICK changes nothing, requests are held, edge events and DRAIN leave it, and only RESET
leaves it (93_implementation_defined.md X2, log 8). -/
def Obligations.UnusedPhaseIsStuck : Prop :=
  ∀ s : State, s.encPhase = .unused →
    busy s = true ∧ exec .tick s = .next s ∧ (∀ a c, exec (.txFrame a c) s = .next s)
    ∧ exec .txRepeat s = .next s
    ∧ ∀ i t, exec i s = .next t → (t.encPhase = .unused ↔ i ≠ .reset)

/-- The waveform of a full frame, microsecond by microsecond: after the accepting TX_FRAME and `k` TICKs the emitter
shows level `k` of the frame's segments, `busy` is 1 for exactly T_frame(F) TICKs, and `tx_done` is signalled once, by
the last of them; the decoder is untouched (41_encoder.md R70, R72, R74, R75; R70 and R72 are the spec's inferences). -/
def Obligations.FullFrameWaveform : Prop :=
  ∀ (s : State) (a : Address) (c : Command) (k : Nat), busy s = false →
    ∃ t, runEvents (.txFrame a c :: ticks k) s = .next t
      ∧ t.emitOn = levelAt (frameSegments (assembleFrame a c)) k
      ∧ busy t = decide (k < frameTicks (assembleFrame a c))
      ∧ t.outputs = (if k < frameTicks (assembleFrame a c) then s.outputs else .txDone :: s.outputs)
      ∧ t.encFrame = assembleFrame a c ∧ decoderPart t = decoderPart s

/-- The waveform of a repeat code, in the same terms: 9000 on, 2250 off, 560 on, 11810 TICKs in all
(41_encoder.md R71, R72, R74, R75; R71 and R72 are the spec's inferences). -/
def Obligations.RepeatCodeWaveform : Prop :=
  ∀ (s : State) (k : Nat), busy s = false →
    ∃ t, runEvents (.txRepeat :: ticks k) s = .next t
      ∧ t.emitOn = (decide (k < 9000) || (decide (11250 ≤ k) && decide (k < 11810)))
      ∧ busy t = decide (k < 11810)
      ∧ t.outputs = (if k < 11810 then s.outputs else .txDone :: s.outputs)
      ∧ t.encFrame = s.encFrame ∧ decoderPart t = decoderPart s

/-- The segments of a full frame last 49900 + 1130 * popcount(F) in all; for a frame TX_FRAME sends, popcount(F) is
popcount(address) + 8, so the time is from 58940 to 77020 (41_encoder.md R72, the spec's inference). -/
def Obligations.FullFrameBusyTime : Prop :=
  (∀ F : Frame, segmentsMicros (frameSegments F) = 49900 + 1130 * popcount F)
    ∧ (∀ (a : Address) (c : Command), popcount (assembleFrame a c) = popcount a + 8
        ∧ 58940 ≤ frameTicks (assembleFrame a c) ∧ frameTicks (assembleFrame a c) ≤ 77020)

/-- Without a RESET, `tx_done` has been signalled exactly once for each request accepted, but for one still running
(41_encoder.md R74, decision D9). -/
def Obligations.TxDoneOncePerAcceptedRequest : Prop :=
  ∀ (events : List Instr) (s t : State), .reset ∉ events → runEvents events s = .next t →
    txDoneCount t + (busy t).toNat = txDoneCount s + (busy s).toNat + acceptedRequests events s

/-! ### The frame port -/

/-- DRAIN, op 6 in format N and never held, returns the flag and the word in one event and clears the flag; nothing
else changes (44_frame_port.md R105). -/
def Obligations.DrainReadsAndClears : Prop :=
  ∀ s : State,
    decode 0x6000000000000000 = .ok .drain
    ∧ held .drain s = false
    ∧ exec .drain s = .next
      { s with frameReady := false, outputs := .drained s.frameReady s.completedFrame :: s.outputs }

/-- Of two DRAINs with no completion between them the second returns `ready = 0` (44_frame_port.md R109, the spec's
inference). -/
def Obligations.SecondDrainReturnsNotReady : Prop :=
  ∀ (s s₁ t : State) (events : List Instr), exec .drain s = .next s₁ → NoCompletion events s₁ →
    runEvents events s₁ = .next t →
    exec .drain t = .next { t with outputs := .drained false t.completedFrame :: t.outputs }

/-- Field extraction and the checksum relation, in plain arithmetic; the relation does not look at the address, the
frame port computes it, and the decoder publishes any word, valid or not (44_frame_port.md R106, R107). -/
def Obligations.FieldsAndChecksumOfAFrame : Prop :=
  (∀ F : Frame,
    (frameAddress F).toNat = F.toNat % 2 ^ 16
    ∧ (frameCommand F).toNat = F.toNat / 2 ^ 16 % 2 ^ 8
    ∧ (frameInverted F).toNat = F.toNat / 2 ^ 24 % 2 ^ 8
    ∧ (frameExpected F).toNat = 255 - F.toNat / 2 ^ 16 % 2 ^ 8
    ∧ (checksumOk F = true ↔ F.toNat / 2 ^ 24 % 2 ^ 8 = 255 - F.toNat / 2 ^ 16 % 2 ^ 8))
    ∧ (∀ F G : Frame, F.toNat / 2 ^ 16 = G.toNat / 2 ^ 16 → checksumOk F = checksumOk G)
    ∧ (∀ s : State, (ports s).checksumOk = checksumOk s.completedFrame
        ∧ (ports s).frameInvExpected = frameExpected s.completedFrame)
    ∧ (∀ F : Frame, ∃ (now : Timestamp) (s t : State),
        StateInv s ∧ s.completedFrame ≠ F ∧ exec (.edgeFall now) s = .next t
        ∧ t.completedFrame = F ∧ t.frameReady = true)

/-- The output ports are the table's functions of the state (10_state.md R32). -/
def Obligations.PortsShowTheState : Prop :=
  ∀ s : State, ports s =
    { emitOn := s.emitOn
      emitDuty := if s.emitOn then Config.emitDutyOn else 0
      busy := decide (s.encPhase ≠ .idle)
      frameReady := s.frameReady
      frameWord := s.completedFrame
      frameAddr := s.completedFrame.extractLsb' 0 16
      frameCmd := s.completedFrame.extractLsb' 16 8
      frameInv := s.completedFrame.extractLsb' 24 8
      frameInvExpected := ~~~ (s.completedFrame.extractLsb' 16 8)
      checksumOk := s.completedFrame.extractLsb' 24 8 == ~~~ (s.completedFrame.extractLsb' 16 8) }

/-- The Consumer calls `onValidHit(a, c)` exactly for a ready frame that is the one TX_FRAME a, c sends, has no effect
exactly when not ready, and otherwise reports the checksum failure's three values (44_frame_port.md R111). -/
def Obligations.ValidHitExactlyForSentFrames : Prop :=
  ∀ (ready : Bool) (F : Frame),
    (∀ a c, consumerAction ready F = .validHit a c ↔ ready = true ∧ F = assembleFrame a c)
    ∧ (consumerAction ready F = .noEffect ↔ ready = false)
    ∧ (∀ c r e, consumerAction ready F = .checksumFailure c r e ↔
        ready = true ∧ frameCommand F = c ∧ frameInverted F = r ∧ e = ~~~c ∧ r ≠ e)

/-! ### Reset -/

/-- RESET, op 7 in format N, puts every element into its reset value and leaves the `refused` mark; no `tx_done` is
signalled (70_reset_and_hazards.md R133). -/
def Obligations.ResetRestoresEveryElement : Prop :=
  ∀ s : State,
    decode 0x7000000000000000 = .ok .reset
    ∧ exec .reset s = .next
      { s with
        decState := .awaitingStart, lastEdgeTimestamp := 0, bitsAccumulated := 0, partialFrame := 0
        completedFrame := 0, frameReady := false, encPhase := .idle, encKind := .fullFrame, encBit := 0
        encRemaining := 0, encFrame := 0, emitOn := false }

/-- The reset values, after RESET from any state and at power-on, where `refused` is 0 (10_state.md R34). -/
def Obligations.ResetValuesOfEveryElement : Prop :=
  State.reset.decState = .awaitingStart ∧ State.reset.lastEdgeTimestamp = 0 ∧ State.reset.bitsAccumulated = 0
    ∧ State.reset.partialFrame = 0 ∧ State.reset.completedFrame = 0 ∧ State.reset.frameReady = false
    ∧ State.reset.encPhase = .idle ∧ State.reset.encKind = .fullFrame ∧ State.reset.encBit = 0
    ∧ State.reset.encRemaining = 0 ∧ State.reset.encFrame = 0 ∧ State.reset.emitOn = false
    ∧ State.reset.refused = false
    ∧ ∀ s t : State, exec .reset s = .next t →
        { decoderPart t with freeDraws := State.reset.freeDraws } = decoderPart State.reset
        ∧ encoderPart t = encoderPart State.reset
        ∧ t.refused = s.refused

/-- The first FALL after a RESET starts a frame exactly when its timestamp lies in (4000, 5000)
(70_reset_and_hazards.md R136, the spec's inference from its reset value of `lastEdgeTimestamp`, decision D13). -/
def Obligations.FirstFallAfterReset : Prop :=
  ∀ (now : Timestamp) (s : State),
    ∃ t, runEvents [.reset, .edgeFall now] s = .next t
      ∧ (t.decState = .receivingBits ↔ 4000 < now.toNat ∧ now.toNat < 5000)
      ∧ t.lastEdgeTimestamp = now ∧ t.frameReady = false

/-! ### Who writes what -/

/-- Write ownership: only the Detector's events and RESET write the decoder's assembly and `completedFrame`;
`frameReady` is set only by EDGE_FALL and cleared only by DRAIN and RESET; no encoder event changes a decoder element,
and none reads one: its effect on the encoder, and what it signals, is the same whatever the decoder holds
(10_state.md R20). -/
def Obligations.DecoderElementsHaveTheirOwners : Prop :=
  (∀ (i : Instr) (s t : State), exec i s = .next t →
    (agentOf i = .detector ∨ agentOf i = .reset
      ∨ (t.decState = s.decState ∧ t.bitsAccumulated = s.bitsAccumulated ∧ t.partialFrame = s.partialFrame
          ∧ t.lastEdgeTimestamp = s.lastEdgeTimestamp ∧ t.completedFrame = s.completedFrame))
    ∧ (s.frameReady = false → t.frameReady = true → ∃ now, i = .edgeFall now)
    ∧ (s.frameReady = true → t.frameReady = false → i = .drain ∨ i = .reset)
    ∧ (agentOf i = .issuer ∨ agentOf i = .timebase → decoderPart t = decoderPart s))
    ∧ (∀ (i : Instr) (s s' t t' : State), agentOf i = .issuer ∨ agentOf i = .timebase →
        exec i s = .next t → exec i s' = .next t' →
        encoderPart s = encoderPart s' → s.outputs = s'.outputs →
        encoderPart t = encoderPart t' ∧ t.outputs = t'.outputs)

/-- Encoder and decoder do not interfere: each part after an event is a function of the same part before it
(60_exceptions.md R132, 41_encoder.md R75, decision D21). -/
def Obligations.EncoderAndDecoderDoNotInterfere : Prop :=
  ∀ (i : Instr) (s s' t t' : State), exec i s = .next t → exec i s' = .next t' →
    (decoderPart s = decoderPart s' → decoderPart t = decoderPart t')
    ∧ (encoderPart s = encoderPart s' → encoderPart t = encoderPart t')

/-- The frame of the edge events and DRAIN: the encoder's elements and its emitter, `refused` and the environment's
events are unchanged; an edge event presents no output; a DRAIN changes of the decoder only `frameReady`
(43_decoder.md R90, R91; 44_frame_port.md R105, R112). -/
def Obligations.DetectorAndConsumerFrame : Prop :=
  ∀ (i : Instr) (s t : State), agentOf i = .detector ∨ agentOf i = .consumer → exec i s = .next t →
    encoderPart t = encoderPart s ∧ t.refused = s.refused ∧ t.inputs = s.inputs
    ∧ (agentOf i = .detector → t.outputs = s.outputs)
    ∧ (agentOf i = .consumer → decoderPart t = { decoderPart s with frameReady := false })

/-- The frame of the encoder's events: `enc_frame` is written only by TX_FRAME and RESET, `enc_kind` by TX_FRAME,
TX_REPEAT and RESET, the sequencer and the emitter by these and TICK; TX and TICK leave `refused` and the environment's
events unchanged (10_state.md R21 to R26). -/
def Obligations.EncoderElementsHaveTheirWriters : Prop :=
  ∀ (i : Instr) (s t : State), exec i s = .next t →
    (t.encFrame = s.encFrame ∨ (∃ a c, i = .txFrame a c) ∨ i = .reset)
    ∧ (t.encKind = s.encKind ∨ (∃ a c, i = .txFrame a c) ∨ i = .txRepeat ∨ i = .reset)
    ∧ ((t.encPhase = s.encPhase ∧ t.encBit = s.encBit ∧ t.encRemaining = s.encRemaining ∧ t.emitOn = s.emitOn)
        ∨ agentOf i = .issuer ∨ i = .tick ∨ i = .reset)
    ∧ t.refused = s.refused ∧ t.inputs = s.inputs

/-- The one-shot outputs: DRAIN returns its pair, the TICK that ends STOP_MARK signals `tx_done`, and no other event
presents anything (10_state.md R33). -/
def Obligations.OnlyDrainAndTheLastTickPresentOutputs : Prop :=
  ∀ (i : Instr) (s t : State), exec i s = .next t →
    t.outputs =
      if i = .drain then .drained s.frameReady s.completedFrame :: s.outputs
      else if i = .tick ∧ s.encPhase = .stopMark ∧ s.encRemaining.toNat ≤ 1 then .txDone :: s.outputs
      else s.outputs

/-! ### The wire -/

/-- The ideal edges of a full frame are 34 FALLs and 34 RISEs, of a repeat code 2 of each (30_encoding.md R61). -/
def Obligations.IdealEdgesOfTheWaveforms : Prop :=
  ∀ (t0 : Timestamp) (F : Frame),
    (necFrame t0 F).countP (fun i => i.mnemonic == "EDGE_FALL") = 34
    ∧ (necFrame t0 F).countP (fun i => i.mnemonic == "EDGE_RISE") = 34
    ∧ (necFrame t0 F).length = 68
    ∧ necRepeat t0 = [.edgeFall t0, .edgeRise (t0 + 9000), .edgeFall (t0 + 11250), .edgeRise (t0 + 11810)]
end

