-- ==== Sys2Proof/Laws/Classifier.lean ====
section
/-! SUPPORT. When the classifier answers each symbol, as inequalities on the duration (00_scope.md R6). -/

namespace Sys2Proof.Machine

theorem insideWindow_iff (w : Config.Window) (d : Timestamp) :
    insideWindow w d = true ↔ w.lower < d.toNat ∧ d.toNat < w.upper := by
  simp [insideWindow]

theorem classify_eq_leading_iff (d : Timestamp) :
    classify d = .leading ↔ 4000 < d.toNat ∧ d.toNat < 5000 := by
  simp only [classify, insideWindow_iff]
  repeat' split
  all_goals simp_all

theorem classify_eq_zero_iff (d : Timestamp) : classify d = .zero ↔ 400 < d.toNat ∧ d.toNat < 800 := by
  simp only [classify, insideWindow_iff]
  repeat' split
  all_goals simp_all
  all_goals omega

theorem classify_eq_one_iff (d : Timestamp) : classify d = .one ↔ 1500 < d.toNat ∧ d.toNat < 1900 := by
  simp only [classify, insideWindow_iff]
  repeat' split
  all_goals simp_all
  all_goals omega

theorem classify_eq_repeated_iff (d : Timestamp) :
    classify d = .repeated ↔ 2000 < d.toNat ∧ d.toNat < 2500 := by
  simp only [classify, insideWindow_iff]
  repeat' split
  all_goals simp_all
  all_goals omega

end Sys2Proof.Machine
end

