-- ==== Sys2Proof/Laws/PerInstr.lean ====
section
/-! SUPPORT. The family OpField: an instruction's word carries its `op` in bits 63:60 (30_encoding.md R48, R49), one lemma
per constructor. -/

namespace Sys2Proof.Laws.OpField

/-- The `op` field of the instruction's word is the instruction's opcode. -/
def Statement (i : Instr) : Prop := opField (encode i) = opcode i

theorem opField_formatT (op : BitVec 4) (now : Timestamp) : opField (formatT op now) = op := by
  apply BitVec.eq_of_getLsbD_eq
  intro j hj
  have h : 60 + j < 64 := by omega
  have hn : now.getLsbD (60 + j) = false := BitVec.getLsbD_of_ge _ _ (by omega)
  simp [opField, formatT, hj, h, hn]

theorem opField_formatA (op : BitVec 4) (address : Address) (command : Command) :
    opField (formatA op address command) = op := by
  apply BitVec.eq_of_getLsbD_eq
  intro j hj
  have h : 60 + j < 64 := by omega
  have hc : command.getLsbD (60 + j - 16) = false := BitVec.getLsbD_of_ge _ _ (by omega)
  have ha : address.getLsbD (60 + j) = false := BitVec.getLsbD_of_ge _ _ (by omega)
  simp [opField, formatA, hj, h, hc, ha]

theorem edgeFall (now : Timestamp) : Statement (.edgeFall now) := opField_formatT _ _
theorem edgeRise (now : Timestamp) : Statement (.edgeRise now) := opField_formatT _ _
theorem txFrame (address : Address) (command : Command) : Statement (.txFrame address command) := opField_formatA _ _ _
theorem txRepeat : Statement .txRepeat := by rfl
theorem tick : Statement .tick := by rfl
theorem drain : Statement .drain := by rfl
theorem reset : Statement .reset := by rfl

end Sys2Proof.Laws.OpField
end

