-- ==== Sys2Proof/Laws/Decode.lean ====
section
/-! SUPPORT. The fields of the words the formats build (30_encoding.md R50 to R53): each operand is read back whole and
the reserved bits are zero. -/

namespace Sys2Proof

theorem nowField_formatT (op : BitVec 4) (now : Timestamp) : nowField (formatT op now) = now := by
  apply BitVec.eq_of_getLsbD_eq
  intro j hj
  have h60 : j < 60 := by omega
  have h64 : j < 64 := by omega
  simp [nowField, formatT, hj, h60, h64]

theorem reservedT_formatT (op : BitVec 4) (now : Timestamp) : reservedT (formatT op now) = 0#28 := by
  apply BitVec.eq_of_getLsbD_eq
  intro j hj
  have h60 : 32 + j < 60 := by omega
  simp [reservedT, formatT, h60]

theorem addressField_formatA (op : BitVec 4) (address : Address) (command : Command) :
    addressField (formatA op address command) = address := by
  apply BitVec.eq_of_getLsbD_eq
  intro j hj
  have h60 : j < 60 := by omega
  have h64 : j < 64 := by omega
  simp [addressField, formatA, hj, h60, h64]

theorem commandField_formatA (op : BitVec 4) (address : Address) (command : Command) :
    commandField (formatA op address command) = command := by
  apply BitVec.eq_of_getLsbD_eq
  intro j hj
  have h60 : 16 + j < 60 := by omega
  have h64 : 16 + j < 64 := by omega
  simp [commandField, formatA, hj, h60, h64]

theorem reservedA_formatA (op : BitVec 4) (address : Address) (command : Command) :
    reservedA (formatA op address command) = 0#36 := by
  apply BitVec.eq_of_getLsbD_eq
  intro j hj
  have h60 : 24 + j < 60 := by omega
  have ha : address.getLsbD (24 + j) = false := BitVec.getLsbD_of_ge _ _ (by omega)
  have hc : command.getLsbD (24 + j - 16) = false := BitVec.getLsbD_of_ge _ _ (by omega)
  simp [reservedA, formatA, h60, ha, hc]

/-! ### The fields and formats as arithmetic on the word's number -/

theorem toNat_opField (w : EventWord) : (opField w).toNat = w.toNat / 2 ^ 60 := by
  have h := w.isLt
  simp [opField, Nat.shiftRight_eq_div_pow]
  omega

theorem toNat_nowField (w : EventWord) : (nowField w).toNat = w.toNat % 2 ^ 32 := by
  simp [nowField]

theorem toNat_addressField (w : EventWord) : (addressField w).toNat = w.toNat % 2 ^ 16 := by
  simp [addressField]

theorem toNat_commandField (w : EventWord) : (commandField w).toNat = w.toNat / 2 ^ 16 % 2 ^ 8 := by
  simp [commandField, Nat.shiftRight_eq_div_pow]

theorem toNat_reservedT (w : EventWord) : (reservedT w).toNat = w.toNat / 2 ^ 32 % 2 ^ 28 := by
  simp [reservedT, Nat.shiftRight_eq_div_pow]

theorem toNat_reservedA (w : EventWord) : (reservedA w).toNat = w.toNat / 2 ^ 24 % 2 ^ 36 := by
  simp [reservedA, Nat.shiftRight_eq_div_pow]

theorem toNat_reservedN (w : EventWord) : (reservedN w).toNat = w.toNat % 2 ^ 60 := by
  simp [reservedN]

theorem toNat_formatT (op : BitVec 4) (now : Timestamp) :
    (formatT op now).toNat = op.toNat * 2 ^ 60 + now.toNat := by
  have ho := op.isLt
  have hn := now.isLt
  have hshift : op.toNat * 2 ^ 60 < 2 ^ 64 := by omega
  have hor : op.toNat <<< 60 ||| now.toNat = op.toNat <<< 60 + now.toNat :=
    (Nat.shiftLeft_add_eq_or_of_lt (show now.toNat < 2 ^ 60 by omega) _).symm
  rw [formatT, BitVec.toNat_or, BitVec.toNat_shiftLeft, BitVec.toNat_setWidth, BitVec.toNat_setWidth,
    Nat.mod_eq_of_lt (a := op.toNat) (by omega), Nat.mod_eq_of_lt (a := now.toNat) (by omega),
    Nat.mod_eq_of_lt (by rw [Nat.shiftLeft_eq]; exact hshift), hor, Nat.shiftLeft_eq]

theorem toNat_formatN (op : BitVec 4) : (formatN op).toNat = op.toNat * 2 ^ 60 := by
  have ho := op.isLt
  simp only [formatN, BitVec.toNat_shiftLeft, BitVec.toNat_setWidth, Nat.shiftLeft_eq]
  omega

/-- A word is refused or decodes: the one way `unlessReserved` answers an instruction. -/
theorem unlessReserved_eq_ok_iff (z : Bool) (i j : Instr) : unlessReserved z i = .ok j ↔ z = true ∧ i = j := by
  cases z <;> simp [unlessReserved]

end Sys2Proof
end

