-- ==== Sys2Proof/Laws/State.lean ====
section
/-! SUPPORT. One lemma per field for each update of the state: the field's new value, or that it is kept. -/

namespace Sys2Proof.Machine

/-! ### `present` -/

@[simp] theorem present_decState (o : OutputEvent) (s : State) : (present o s).decState = s.decState := rfl
@[simp] theorem present_lastEdgeTimestamp (o : OutputEvent) (s : State) : (present o s).lastEdgeTimestamp = s.lastEdgeTimestamp := rfl
@[simp] theorem present_bitsAccumulated (o : OutputEvent) (s : State) : (present o s).bitsAccumulated = s.bitsAccumulated := rfl
@[simp] theorem present_partialFrame (o : OutputEvent) (s : State) : (present o s).partialFrame = s.partialFrame := rfl
@[simp] theorem present_completedFrame (o : OutputEvent) (s : State) : (present o s).completedFrame = s.completedFrame := rfl
@[simp] theorem present_frameReady (o : OutputEvent) (s : State) : (present o s).frameReady = s.frameReady := rfl
@[simp] theorem present_encPhase (o : OutputEvent) (s : State) : (present o s).encPhase = s.encPhase := rfl
@[simp] theorem present_encKind (o : OutputEvent) (s : State) : (present o s).encKind = s.encKind := rfl
@[simp] theorem present_encBit (o : OutputEvent) (s : State) : (present o s).encBit = s.encBit := rfl
@[simp] theorem present_encRemaining (o : OutputEvent) (s : State) : (present o s).encRemaining = s.encRemaining := rfl
@[simp] theorem present_encFrame (o : OutputEvent) (s : State) : (present o s).encFrame = s.encFrame := rfl
@[simp] theorem present_emitOn (o : OutputEvent) (s : State) : (present o s).emitOn = s.emitOn := rfl
@[simp] theorem present_refused (o : OutputEvent) (s : State) : (present o s).refused = s.refused := rfl
@[simp] theorem present_outputs (o : OutputEvent) (s : State) : (present o s).outputs = o :: s.outputs := rfl
@[simp] theorem present_freeDraws (o : OutputEvent) (s : State) : (present o s).freeDraws = s.freeDraws := rfl
@[simp] theorem present_inputs (o : OutputEvent) (s : State) : (present o s).inputs = s.inputs := rfl

/-! ### `enterPhase` -/

@[simp] theorem enterPhase_decState (p : EncPhase) (s : State) : (enterPhase p s).decState = s.decState := rfl
@[simp] theorem enterPhase_lastEdgeTimestamp (p : EncPhase) (s : State) : (enterPhase p s).lastEdgeTimestamp = s.lastEdgeTimestamp := rfl
@[simp] theorem enterPhase_bitsAccumulated (p : EncPhase) (s : State) : (enterPhase p s).bitsAccumulated = s.bitsAccumulated := rfl
@[simp] theorem enterPhase_partialFrame (p : EncPhase) (s : State) : (enterPhase p s).partialFrame = s.partialFrame := rfl
@[simp] theorem enterPhase_completedFrame (p : EncPhase) (s : State) : (enterPhase p s).completedFrame = s.completedFrame := rfl
@[simp] theorem enterPhase_frameReady (p : EncPhase) (s : State) : (enterPhase p s).frameReady = s.frameReady := rfl
@[simp] theorem enterPhase_encPhase (p : EncPhase) (s : State) : (enterPhase p s).encPhase = p := rfl
@[simp] theorem enterPhase_encKind (p : EncPhase) (s : State) : (enterPhase p s).encKind = s.encKind := rfl
@[simp] theorem enterPhase_encBit (p : EncPhase) (s : State) : (enterPhase p s).encBit = s.encBit := rfl
@[simp] theorem enterPhase_encRemaining (p : EncPhase) (s : State) : (enterPhase p s).encRemaining = BitVec.ofNat 14 (phaseMicros p s.encFrame s.encBit) := rfl
@[simp] theorem enterPhase_encFrame (p : EncPhase) (s : State) : (enterPhase p s).encFrame = s.encFrame := rfl
@[simp] theorem enterPhase_emitOn (p : EncPhase) (s : State) : (enterPhase p s).emitOn = phaseLevel p := rfl
@[simp] theorem enterPhase_refused (p : EncPhase) (s : State) : (enterPhase p s).refused = s.refused := rfl
@[simp] theorem enterPhase_outputs (p : EncPhase) (s : State) : (enterPhase p s).outputs = s.outputs := rfl
@[simp] theorem enterPhase_freeDraws (p : EncPhase) (s : State) : (enterPhase p s).freeDraws = s.freeDraws := rfl
@[simp] theorem enterPhase_inputs (p : EncPhase) (s : State) : (enterPhase p s).inputs = s.inputs := rfl

/-! ### `setEncBit` -/

@[simp] theorem setEncBit_decState (b : BitVec 5) (s : State) : (setEncBit b s).decState = s.decState := rfl
@[simp] theorem setEncBit_lastEdgeTimestamp (b : BitVec 5) (s : State) : (setEncBit b s).lastEdgeTimestamp = s.lastEdgeTimestamp := rfl
@[simp] theorem setEncBit_bitsAccumulated (b : BitVec 5) (s : State) : (setEncBit b s).bitsAccumulated = s.bitsAccumulated := rfl
@[simp] theorem setEncBit_partialFrame (b : BitVec 5) (s : State) : (setEncBit b s).partialFrame = s.partialFrame := rfl
@[simp] theorem setEncBit_completedFrame (b : BitVec 5) (s : State) : (setEncBit b s).completedFrame = s.completedFrame := rfl
@[simp] theorem setEncBit_frameReady (b : BitVec 5) (s : State) : (setEncBit b s).frameReady = s.frameReady := rfl
@[simp] theorem setEncBit_encPhase (b : BitVec 5) (s : State) : (setEncBit b s).encPhase = s.encPhase := rfl
@[simp] theorem setEncBit_encKind (b : BitVec 5) (s : State) : (setEncBit b s).encKind = s.encKind := rfl
@[simp] theorem setEncBit_encBit (b : BitVec 5) (s : State) : (setEncBit b s).encBit = b := rfl
@[simp] theorem setEncBit_encRemaining (b : BitVec 5) (s : State) : (setEncBit b s).encRemaining = s.encRemaining := rfl
@[simp] theorem setEncBit_encFrame (b : BitVec 5) (s : State) : (setEncBit b s).encFrame = s.encFrame := rfl
@[simp] theorem setEncBit_emitOn (b : BitVec 5) (s : State) : (setEncBit b s).emitOn = s.emitOn := rfl
@[simp] theorem setEncBit_refused (b : BitVec 5) (s : State) : (setEncBit b s).refused = s.refused := rfl
@[simp] theorem setEncBit_outputs (b : BitVec 5) (s : State) : (setEncBit b s).outputs = s.outputs := rfl
@[simp] theorem setEncBit_freeDraws (b : BitVec 5) (s : State) : (setEncBit b s).freeDraws = s.freeDraws := rfl
@[simp] theorem setEncBit_inputs (b : BitVec 5) (s : State) : (setEncBit b s).inputs = s.inputs := rfl

/-! ### `startTransmission` -/

@[simp] theorem startTransmission_decState (k : EncKind) (s : State) : (startTransmission k s).decState = s.decState := rfl
@[simp] theorem startTransmission_lastEdgeTimestamp (k : EncKind) (s : State) : (startTransmission k s).lastEdgeTimestamp = s.lastEdgeTimestamp := rfl
@[simp] theorem startTransmission_bitsAccumulated (k : EncKind) (s : State) : (startTransmission k s).bitsAccumulated = s.bitsAccumulated := rfl
@[simp] theorem startTransmission_partialFrame (k : EncKind) (s : State) : (startTransmission k s).partialFrame = s.partialFrame := rfl
@[simp] theorem startTransmission_completedFrame (k : EncKind) (s : State) : (startTransmission k s).completedFrame = s.completedFrame := rfl
@[simp] theorem startTransmission_frameReady (k : EncKind) (s : State) : (startTransmission k s).frameReady = s.frameReady := rfl
@[simp] theorem startTransmission_encPhase (k : EncKind) (s : State) : (startTransmission k s).encPhase = .leadMark := rfl
@[simp] theorem startTransmission_encKind (k : EncKind) (s : State) : (startTransmission k s).encKind = k := rfl
@[simp] theorem startTransmission_encBit (k : EncKind) (s : State) : (startTransmission k s).encBit = 0#5 := rfl
@[simp] theorem startTransmission_encRemaining (k : EncKind) (s : State) : (startTransmission k s).encRemaining = 9000#14 := rfl
@[simp] theorem startTransmission_encFrame (k : EncKind) (s : State) : (startTransmission k s).encFrame = s.encFrame := rfl
@[simp] theorem startTransmission_emitOn (k : EncKind) (s : State) : (startTransmission k s).emitOn = true := rfl
@[simp] theorem startTransmission_refused (k : EncKind) (s : State) : (startTransmission k s).refused = s.refused := rfl
@[simp] theorem startTransmission_outputs (k : EncKind) (s : State) : (startTransmission k s).outputs = s.outputs := rfl
@[simp] theorem startTransmission_freeDraws (k : EncKind) (s : State) : (startTransmission k s).freeDraws = s.freeDraws := rfl
@[simp] theorem startTransmission_inputs (k : EncKind) (s : State) : (startTransmission k s).inputs = s.inputs := rfl

/-! ### `countDown` -/

@[simp] theorem countDown_decState (s : State) : (countDown s).decState = s.decState := rfl
@[simp] theorem countDown_lastEdgeTimestamp (s : State) : (countDown s).lastEdgeTimestamp = s.lastEdgeTimestamp := rfl
@[simp] theorem countDown_bitsAccumulated (s : State) : (countDown s).bitsAccumulated = s.bitsAccumulated := rfl
@[simp] theorem countDown_partialFrame (s : State) : (countDown s).partialFrame = s.partialFrame := rfl
@[simp] theorem countDown_completedFrame (s : State) : (countDown s).completedFrame = s.completedFrame := rfl
@[simp] theorem countDown_frameReady (s : State) : (countDown s).frameReady = s.frameReady := rfl
@[simp] theorem countDown_encPhase (s : State) : (countDown s).encPhase = s.encPhase := rfl
@[simp] theorem countDown_encKind (s : State) : (countDown s).encKind = s.encKind := rfl
@[simp] theorem countDown_encBit (s : State) : (countDown s).encBit = s.encBit := rfl
@[simp] theorem countDown_encRemaining (s : State) : (countDown s).encRemaining = s.encRemaining - 1#14 := rfl
@[simp] theorem countDown_encFrame (s : State) : (countDown s).encFrame = s.encFrame := rfl
@[simp] theorem countDown_emitOn (s : State) : (countDown s).emitOn = s.emitOn := rfl
@[simp] theorem countDown_refused (s : State) : (countDown s).refused = s.refused := rfl
@[simp] theorem countDown_outputs (s : State) : (countDown s).outputs = s.outputs := rfl
@[simp] theorem countDown_freeDraws (s : State) : (countDown s).freeDraws = s.freeDraws := rfl
@[simp] theorem countDown_inputs (s : State) : (countDown s).inputs = s.inputs := rfl

/-! ### `recordEdge` -/

@[simp] theorem recordEdge_decState (now : Timestamp) (s : State) : (recordEdge now s).decState = s.decState := rfl
@[simp] theorem recordEdge_lastEdgeTimestamp (now : Timestamp) (s : State) : (recordEdge now s).lastEdgeTimestamp = now := rfl
@[simp] theorem recordEdge_bitsAccumulated (now : Timestamp) (s : State) : (recordEdge now s).bitsAccumulated = s.bitsAccumulated := rfl
@[simp] theorem recordEdge_partialFrame (now : Timestamp) (s : State) : (recordEdge now s).partialFrame = s.partialFrame := rfl
@[simp] theorem recordEdge_completedFrame (now : Timestamp) (s : State) : (recordEdge now s).completedFrame = s.completedFrame := rfl
@[simp] theorem recordEdge_frameReady (now : Timestamp) (s : State) : (recordEdge now s).frameReady = s.frameReady := rfl
@[simp] theorem recordEdge_encPhase (now : Timestamp) (s : State) : (recordEdge now s).encPhase = s.encPhase := rfl
@[simp] theorem recordEdge_encKind (now : Timestamp) (s : State) : (recordEdge now s).encKind = s.encKind := rfl
@[simp] theorem recordEdge_encBit (now : Timestamp) (s : State) : (recordEdge now s).encBit = s.encBit := rfl
@[simp] theorem recordEdge_encRemaining (now : Timestamp) (s : State) : (recordEdge now s).encRemaining = s.encRemaining := rfl
@[simp] theorem recordEdge_encFrame (now : Timestamp) (s : State) : (recordEdge now s).encFrame = s.encFrame := rfl
@[simp] theorem recordEdge_emitOn (now : Timestamp) (s : State) : (recordEdge now s).emitOn = s.emitOn := rfl
@[simp] theorem recordEdge_refused (now : Timestamp) (s : State) : (recordEdge now s).refused = s.refused := rfl
@[simp] theorem recordEdge_outputs (now : Timestamp) (s : State) : (recordEdge now s).outputs = s.outputs := rfl
@[simp] theorem recordEdge_freeDraws (now : Timestamp) (s : State) : (recordEdge now s).freeDraws = s.freeDraws := rfl
@[simp] theorem recordEdge_inputs (now : Timestamp) (s : State) : (recordEdge now s).inputs = s.inputs := rfl

/-! ### `startFrame` -/

@[simp] theorem startFrame_decState (s : State) : (startFrame s).decState = .receivingBits := rfl
@[simp] theorem startFrame_lastEdgeTimestamp (s : State) : (startFrame s).lastEdgeTimestamp = s.lastEdgeTimestamp := rfl
@[simp] theorem startFrame_bitsAccumulated (s : State) : (startFrame s).bitsAccumulated = 0#6 := rfl
@[simp] theorem startFrame_partialFrame (s : State) : (startFrame s).partialFrame = 0#32 := rfl
@[simp] theorem startFrame_completedFrame (s : State) : (startFrame s).completedFrame = s.completedFrame := rfl
@[simp] theorem startFrame_frameReady (s : State) : (startFrame s).frameReady = s.frameReady := rfl
@[simp] theorem startFrame_encPhase (s : State) : (startFrame s).encPhase = s.encPhase := rfl
@[simp] theorem startFrame_encKind (s : State) : (startFrame s).encKind = s.encKind := rfl
@[simp] theorem startFrame_encBit (s : State) : (startFrame s).encBit = s.encBit := rfl
@[simp] theorem startFrame_encRemaining (s : State) : (startFrame s).encRemaining = s.encRemaining := rfl
@[simp] theorem startFrame_encFrame (s : State) : (startFrame s).encFrame = s.encFrame := rfl
@[simp] theorem startFrame_emitOn (s : State) : (startFrame s).emitOn = s.emitOn := rfl
@[simp] theorem startFrame_refused (s : State) : (startFrame s).refused = s.refused := rfl
@[simp] theorem startFrame_outputs (s : State) : (startFrame s).outputs = s.outputs := rfl
@[simp] theorem startFrame_freeDraws (s : State) : (startFrame s).freeDraws = s.freeDraws := rfl
@[simp] theorem startFrame_inputs (s : State) : (startFrame s).inputs = s.inputs := rfl

/-! ### `abortFrame` -/

@[simp] theorem abortFrame_decState (s : State) : (abortFrame s).decState = .awaitingStart := rfl
@[simp] theorem abortFrame_lastEdgeTimestamp (s : State) : (abortFrame s).lastEdgeTimestamp = s.lastEdgeTimestamp := rfl
@[simp] theorem abortFrame_bitsAccumulated (s : State) : (abortFrame s).bitsAccumulated = 0#6 := rfl
@[simp] theorem abortFrame_partialFrame (s : State) : (abortFrame s).partialFrame = s.partialFrame := rfl
@[simp] theorem abortFrame_completedFrame (s : State) : (abortFrame s).completedFrame = s.completedFrame := rfl
@[simp] theorem abortFrame_frameReady (s : State) : (abortFrame s).frameReady = s.frameReady := rfl
@[simp] theorem abortFrame_encPhase (s : State) : (abortFrame s).encPhase = s.encPhase := rfl
@[simp] theorem abortFrame_encKind (s : State) : (abortFrame s).encKind = s.encKind := rfl
@[simp] theorem abortFrame_encBit (s : State) : (abortFrame s).encBit = s.encBit := rfl
@[simp] theorem abortFrame_encRemaining (s : State) : (abortFrame s).encRemaining = s.encRemaining := rfl
@[simp] theorem abortFrame_encFrame (s : State) : (abortFrame s).encFrame = s.encFrame := rfl
@[simp] theorem abortFrame_emitOn (s : State) : (abortFrame s).emitOn = s.emitOn := rfl
@[simp] theorem abortFrame_refused (s : State) : (abortFrame s).refused = s.refused := rfl
@[simp] theorem abortFrame_outputs (s : State) : (abortFrame s).outputs = s.outputs := rfl
@[simp] theorem abortFrame_freeDraws (s : State) : (abortFrame s).freeDraws = s.freeDraws := rfl
@[simp] theorem abortFrame_inputs (s : State) : (abortFrame s).inputs = s.inputs := rfl

/-! ### `publishFrame` -/

@[simp] theorem publishFrame_decState (F : Frame) (s : State) : (publishFrame F s).decState = .awaitingStart := rfl
@[simp] theorem publishFrame_lastEdgeTimestamp (F : Frame) (s : State) : (publishFrame F s).lastEdgeTimestamp = s.lastEdgeTimestamp := rfl
@[simp] theorem publishFrame_bitsAccumulated (F : Frame) (s : State) : (publishFrame F s).bitsAccumulated = 0#6 := rfl
@[simp] theorem publishFrame_partialFrame (F : Frame) (s : State) : (publishFrame F s).partialFrame = s.partialFrame := rfl
@[simp] theorem publishFrame_completedFrame (F : Frame) (s : State) : (publishFrame F s).completedFrame = F := rfl
@[simp] theorem publishFrame_frameReady (F : Frame) (s : State) : (publishFrame F s).frameReady = true := rfl
@[simp] theorem publishFrame_encPhase (F : Frame) (s : State) : (publishFrame F s).encPhase = s.encPhase := rfl
@[simp] theorem publishFrame_encKind (F : Frame) (s : State) : (publishFrame F s).encKind = s.encKind := rfl
@[simp] theorem publishFrame_encBit (F : Frame) (s : State) : (publishFrame F s).encBit = s.encBit := rfl
@[simp] theorem publishFrame_encRemaining (F : Frame) (s : State) : (publishFrame F s).encRemaining = s.encRemaining := rfl
@[simp] theorem publishFrame_encFrame (F : Frame) (s : State) : (publishFrame F s).encFrame = s.encFrame := rfl
@[simp] theorem publishFrame_emitOn (F : Frame) (s : State) : (publishFrame F s).emitOn = s.emitOn := rfl
@[simp] theorem publishFrame_refused (F : Frame) (s : State) : (publishFrame F s).refused = s.refused := rfl
@[simp] theorem publishFrame_outputs (F : Frame) (s : State) : (publishFrame F s).outputs = s.outputs := rfl
@[simp] theorem publishFrame_freeDraws (F : Frame) (s : State) : (publishFrame F s).freeDraws = s.freeDraws := rfl
@[simp] theorem publishFrame_inputs (F : Frame) (s : State) : (publishFrame F s).inputs = s.inputs := rfl

/-! ### `spendDraw` -/

@[simp] theorem spendDraw_decState (s : State) : (spendDraw s).decState = s.decState := rfl
@[simp] theorem spendDraw_lastEdgeTimestamp (s : State) : (spendDraw s).lastEdgeTimestamp = s.lastEdgeTimestamp := rfl
@[simp] theorem spendDraw_bitsAccumulated (s : State) : (spendDraw s).bitsAccumulated = s.bitsAccumulated := rfl
@[simp] theorem spendDraw_partialFrame (s : State) : (spendDraw s).partialFrame = s.partialFrame := rfl
@[simp] theorem spendDraw_completedFrame (s : State) : (spendDraw s).completedFrame = s.completedFrame := rfl
@[simp] theorem spendDraw_frameReady (s : State) : (spendDraw s).frameReady = s.frameReady := rfl
@[simp] theorem spendDraw_encPhase (s : State) : (spendDraw s).encPhase = s.encPhase := rfl
@[simp] theorem spendDraw_encKind (s : State) : (spendDraw s).encKind = s.encKind := rfl
@[simp] theorem spendDraw_encBit (s : State) : (spendDraw s).encBit = s.encBit := rfl
@[simp] theorem spendDraw_encRemaining (s : State) : (spendDraw s).encRemaining = s.encRemaining := rfl
@[simp] theorem spendDraw_encFrame (s : State) : (spendDraw s).encFrame = s.encFrame := rfl
@[simp] theorem spendDraw_emitOn (s : State) : (spendDraw s).emitOn = s.emitOn := rfl
@[simp] theorem spendDraw_refused (s : State) : (spendDraw s).refused = s.refused := rfl
@[simp] theorem spendDraw_outputs (s : State) : (spendDraw s).outputs = s.outputs := rfl
@[simp] theorem spendDraw_freeDraws (s : State) : (spendDraw s).freeDraws = if countReachable s then s.freeDraws else s.freeDraws + 1 := rfl
@[simp] theorem spendDraw_inputs (s : State) : (spendDraw s).inputs = s.inputs := rfl

/-! ### `clearReady` -/

@[simp] theorem clearReady_decState (s : State) : (clearReady s).decState = s.decState := rfl
@[simp] theorem clearReady_lastEdgeTimestamp (s : State) : (clearReady s).lastEdgeTimestamp = s.lastEdgeTimestamp := rfl
@[simp] theorem clearReady_bitsAccumulated (s : State) : (clearReady s).bitsAccumulated = s.bitsAccumulated := rfl
@[simp] theorem clearReady_partialFrame (s : State) : (clearReady s).partialFrame = s.partialFrame := rfl
@[simp] theorem clearReady_completedFrame (s : State) : (clearReady s).completedFrame = s.completedFrame := rfl
@[simp] theorem clearReady_frameReady (s : State) : (clearReady s).frameReady = false := rfl
@[simp] theorem clearReady_encPhase (s : State) : (clearReady s).encPhase = s.encPhase := rfl
@[simp] theorem clearReady_encKind (s : State) : (clearReady s).encKind = s.encKind := rfl
@[simp] theorem clearReady_encBit (s : State) : (clearReady s).encBit = s.encBit := rfl
@[simp] theorem clearReady_encRemaining (s : State) : (clearReady s).encRemaining = s.encRemaining := rfl
@[simp] theorem clearReady_encFrame (s : State) : (clearReady s).encFrame = s.encFrame := rfl
@[simp] theorem clearReady_emitOn (s : State) : (clearReady s).emitOn = s.emitOn := rfl
@[simp] theorem clearReady_refused (s : State) : (clearReady s).refused = s.refused := rfl
@[simp] theorem clearReady_outputs (s : State) : (clearReady s).outputs = s.outputs := rfl
@[simp] theorem clearReady_freeDraws (s : State) : (clearReady s).freeDraws = s.freeDraws := rfl
@[simp] theorem clearReady_inputs (s : State) : (clearReady s).inputs = s.inputs := rfl

/-! ### `passTurn` -/

@[simp] theorem passTurn_decState (s : State) : (passTurn s).decState = s.decState := rfl
@[simp] theorem passTurn_lastEdgeTimestamp (s : State) : (passTurn s).lastEdgeTimestamp = s.lastEdgeTimestamp := rfl
@[simp] theorem passTurn_bitsAccumulated (s : State) : (passTurn s).bitsAccumulated = s.bitsAccumulated := rfl
@[simp] theorem passTurn_partialFrame (s : State) : (passTurn s).partialFrame = s.partialFrame := rfl
@[simp] theorem passTurn_completedFrame (s : State) : (passTurn s).completedFrame = s.completedFrame := rfl
@[simp] theorem passTurn_frameReady (s : State) : (passTurn s).frameReady = s.frameReady := rfl
@[simp] theorem passTurn_encPhase (s : State) : (passTurn s).encPhase = s.encPhase := rfl
@[simp] theorem passTurn_encKind (s : State) : (passTurn s).encKind = s.encKind := rfl
@[simp] theorem passTurn_encBit (s : State) : (passTurn s).encBit = s.encBit := rfl
@[simp] theorem passTurn_encRemaining (s : State) : (passTurn s).encRemaining = s.encRemaining := rfl
@[simp] theorem passTurn_encFrame (s : State) : (passTurn s).encFrame = s.encFrame := rfl
@[simp] theorem passTurn_emitOn (s : State) : (passTurn s).emitOn = s.emitOn := rfl
@[simp] theorem passTurn_refused (s : State) : (passTurn s).refused = s.refused := rfl
@[simp] theorem passTurn_outputs (s : State) : (passTurn s).outputs = s.outputs := rfl
@[simp] theorem passTurn_freeDraws (s : State) : (passTurn s).freeDraws = s.freeDraws := rfl
@[simp] theorem passTurn_inputs (s : State) : (passTurn s).inputs = { s.inputs with schedule := s.inputs.schedule.tail } := rfl

/-! ### `takeWord` -/

@[simp] theorem takeWord_decState (a : Agent) (s : State) : (takeWord a s).decState = s.decState := rfl
@[simp] theorem takeWord_lastEdgeTimestamp (a : Agent) (s : State) : (takeWord a s).lastEdgeTimestamp = s.lastEdgeTimestamp := rfl
@[simp] theorem takeWord_bitsAccumulated (a : Agent) (s : State) : (takeWord a s).bitsAccumulated = s.bitsAccumulated := rfl
@[simp] theorem takeWord_partialFrame (a : Agent) (s : State) : (takeWord a s).partialFrame = s.partialFrame := rfl
@[simp] theorem takeWord_completedFrame (a : Agent) (s : State) : (takeWord a s).completedFrame = s.completedFrame := rfl
@[simp] theorem takeWord_frameReady (a : Agent) (s : State) : (takeWord a s).frameReady = s.frameReady := rfl
@[simp] theorem takeWord_encPhase (a : Agent) (s : State) : (takeWord a s).encPhase = s.encPhase := rfl
@[simp] theorem takeWord_encKind (a : Agent) (s : State) : (takeWord a s).encKind = s.encKind := rfl
@[simp] theorem takeWord_encBit (a : Agent) (s : State) : (takeWord a s).encBit = s.encBit := rfl
@[simp] theorem takeWord_encRemaining (a : Agent) (s : State) : (takeWord a s).encRemaining = s.encRemaining := rfl
@[simp] theorem takeWord_encFrame (a : Agent) (s : State) : (takeWord a s).encFrame = s.encFrame := rfl
@[simp] theorem takeWord_emitOn (a : Agent) (s : State) : (takeWord a s).emitOn = s.emitOn := rfl
@[simp] theorem takeWord_refused (a : Agent) (s : State) : (takeWord a s).refused = s.refused := rfl
@[simp] theorem takeWord_outputs (a : Agent) (s : State) : (takeWord a s).outputs = s.outputs := rfl
@[simp] theorem takeWord_freeDraws (a : Agent) (s : State) : (takeWord a s).freeDraws = s.freeDraws := rfl
@[simp] theorem takeWord_inputs (a : Agent) (s : State) : (takeWord a s).inputs = setQueue a (queueOf a s.inputs).tail { s.inputs with schedule := s.inputs.schedule.tail } := rfl

/-! ### `refuseWord` -/

@[simp] theorem refuseWord_decState (s : State) : (refuseWord s).decState = s.decState := rfl
@[simp] theorem refuseWord_lastEdgeTimestamp (s : State) : (refuseWord s).lastEdgeTimestamp = s.lastEdgeTimestamp := rfl
@[simp] theorem refuseWord_bitsAccumulated (s : State) : (refuseWord s).bitsAccumulated = s.bitsAccumulated := rfl
@[simp] theorem refuseWord_partialFrame (s : State) : (refuseWord s).partialFrame = s.partialFrame := rfl
@[simp] theorem refuseWord_completedFrame (s : State) : (refuseWord s).completedFrame = s.completedFrame := rfl
@[simp] theorem refuseWord_frameReady (s : State) : (refuseWord s).frameReady = s.frameReady := rfl
@[simp] theorem refuseWord_encPhase (s : State) : (refuseWord s).encPhase = s.encPhase := rfl
@[simp] theorem refuseWord_encKind (s : State) : (refuseWord s).encKind = s.encKind := rfl
@[simp] theorem refuseWord_encBit (s : State) : (refuseWord s).encBit = s.encBit := rfl
@[simp] theorem refuseWord_encRemaining (s : State) : (refuseWord s).encRemaining = s.encRemaining := rfl
@[simp] theorem refuseWord_encFrame (s : State) : (refuseWord s).encFrame = s.encFrame := rfl
@[simp] theorem refuseWord_emitOn (s : State) : (refuseWord s).emitOn = s.emitOn := rfl
@[simp] theorem refuseWord_refused (s : State) : (refuseWord s).refused = true := rfl
@[simp] theorem refuseWord_outputs (s : State) : (refuseWord s).outputs = s.outputs := rfl
@[simp] theorem refuseWord_freeDraws (s : State) : (refuseWord s).freeDraws = s.freeDraws := rfl
@[simp] theorem refuseWord_inputs (s : State) : (refuseWord s).inputs = s.inputs := rfl

/-! ### `resetElements` -/

@[simp] theorem resetElements_decState (s : State) : (resetElements s).decState = .awaitingStart := rfl
@[simp] theorem resetElements_lastEdgeTimestamp (s : State) : (resetElements s).lastEdgeTimestamp = 0#32 := rfl
@[simp] theorem resetElements_bitsAccumulated (s : State) : (resetElements s).bitsAccumulated = 0#6 := rfl
@[simp] theorem resetElements_partialFrame (s : State) : (resetElements s).partialFrame = 0#32 := rfl
@[simp] theorem resetElements_completedFrame (s : State) : (resetElements s).completedFrame = 0#32 := rfl
@[simp] theorem resetElements_frameReady (s : State) : (resetElements s).frameReady = false := rfl
@[simp] theorem resetElements_encPhase (s : State) : (resetElements s).encPhase = .idle := rfl
@[simp] theorem resetElements_encKind (s : State) : (resetElements s).encKind = .fullFrame := rfl
@[simp] theorem resetElements_encBit (s : State) : (resetElements s).encBit = 0#5 := rfl
@[simp] theorem resetElements_encRemaining (s : State) : (resetElements s).encRemaining = 0#14 := rfl
@[simp] theorem resetElements_encFrame (s : State) : (resetElements s).encFrame = 0#32 := rfl
@[simp] theorem resetElements_emitOn (s : State) : (resetElements s).emitOn = false := rfl
@[simp] theorem resetElements_refused (s : State) : (resetElements s).refused = s.refused := rfl
@[simp] theorem resetElements_outputs (s : State) : (resetElements s).outputs = s.outputs := rfl
@[simp] theorem resetElements_freeDraws (s : State) : (resetElements s).freeDraws = s.freeDraws := rfl
@[simp] theorem resetElements_inputs (s : State) : (resetElements s).inputs = s.inputs := rfl

end Sys2Proof.Machine
end

