-- ==== Sys2Proof/Laws/Ops.lean ====
section
/-! SUPPORT. What each shared operation can do, said once: later proofs cite these and do not unfold the operations. -/

namespace Sys2Proof.Machine

/-! ### Frames, bits and counts -/

theorem getLsbD_setFrameBit (F : Frame) (i : BitVec 5) (b : Bool) (j : Nat) (hj : j < 32) :
    (setFrameBit F i b).getLsbD j = if j = i.toNat then b else F.getLsbD j := by
  have hi : i.toNat < 32 := i.isLt
  cases b <;> by_cases h : j = i.toNat <;> simp [setFrameBit, h, hi, hj]
  all_goals omega

theorem readCount_of_reachable {s : State} (h : s.bitsAccumulated.toNat < 32) :
    readCount s = s.bitsAccumulated := by
  simp [readCount, countReachable, h]

theorem spendDraw_of_reachable {s : State} (h : s.bitsAccumulated.toNat < 32) : spendDraw s = s := by
  simp [spendDraw, countReachable, h]

/-- The two outcomes of appending a bit, whatever the count reads as. -/
theorem appendBit_cases (b : Bool) (s : State) :
    (readCount s + 1#6 = 32#6 ∧
      appendBit b s = publishFrame (appendedFrame b s) { spendDraw s with partialFrame := appendedFrame b s })
    ∨ (readCount s + 1#6 ≠ 32#6 ∧
      appendBit b s =
        { spendDraw s with partialFrame := appendedFrame b s, bitsAccumulated := readCount s + 1#6 }) := by
  by_cases h : readCount s + 1#6 = 32#6 <;> simp [appendBit, h]

/-! ### The decoder's action on a symbol leaves the rest alone -/

@[simp] theorem actOnSymbol_lastEdgeTimestamp (sym : Symbol) (s : State) :
    (actOnSymbol sym s).lastEdgeTimestamp = s.lastEdgeTimestamp := by
  cases hd : s.decState <;> cases sym <;> simp [actOnSymbol, hd, appendBit] <;> split <;> rfl

@[simp] theorem actOnSymbol_encPhase (sym : Symbol) (s : State) : (actOnSymbol sym s).encPhase = s.encPhase := by
  cases hd : s.decState <;> cases sym <;> simp [actOnSymbol, hd, appendBit] <;> split <;> rfl

@[simp] theorem actOnSymbol_encKind (sym : Symbol) (s : State) : (actOnSymbol sym s).encKind = s.encKind := by
  cases hd : s.decState <;> cases sym <;> simp [actOnSymbol, hd, appendBit] <;> split <;> rfl

@[simp] theorem actOnSymbol_encBit (sym : Symbol) (s : State) : (actOnSymbol sym s).encBit = s.encBit := by
  cases hd : s.decState <;> cases sym <;> simp [actOnSymbol, hd, appendBit] <;> split <;> rfl

@[simp] theorem actOnSymbol_encRemaining (sym : Symbol) (s : State) :
    (actOnSymbol sym s).encRemaining = s.encRemaining := by
  cases hd : s.decState <;> cases sym <;> simp [actOnSymbol, hd, appendBit] <;> split <;> rfl

@[simp] theorem actOnSymbol_encFrame (sym : Symbol) (s : State) : (actOnSymbol sym s).encFrame = s.encFrame := by
  cases hd : s.decState <;> cases sym <;> simp [actOnSymbol, hd, appendBit] <;> split <;> rfl

@[simp] theorem actOnSymbol_emitOn (sym : Symbol) (s : State) : (actOnSymbol sym s).emitOn = s.emitOn := by
  cases hd : s.decState <;> cases sym <;> simp [actOnSymbol, hd, appendBit] <;> split <;> rfl

@[simp] theorem actOnSymbol_refused (sym : Symbol) (s : State) : (actOnSymbol sym s).refused = s.refused := by
  cases hd : s.decState <;> cases sym <;> simp [actOnSymbol, hd, appendBit] <;> split <;> rfl

@[simp] theorem actOnSymbol_outputs (sym : Symbol) (s : State) : (actOnSymbol sym s).outputs = s.outputs := by
  cases hd : s.decState <;> cases sym <;> simp [actOnSymbol, hd, appendBit] <;> split <;> rfl

@[simp] theorem actOnSymbol_inputs (sym : Symbol) (s : State) : (actOnSymbol sym s).inputs = s.inputs := by
  cases hd : s.decState <;> cases sym <;> simp [actOnSymbol, hd, appendBit] <;> split <;> rfl

/-! ### The end of a segment -/

/-- What `advance` can do (41_encoder.md R69), one case for each row of the table. -/
theorem advance_cases (s : State) :
    (s.encPhase = .idle ∧ advance s = s)
    ∨ (s.encPhase = .leadMark ∧ s.encKind = .fullFrame ∧ advance s = enterPhase .leadSpace s)
    ∨ (s.encPhase = .leadMark ∧ s.encKind = .repeatCode ∧ advance s = enterPhase .repeatSpace s)
    ∨ (s.encPhase = .leadSpace ∧ advance s = enterPhase .bitMark (setEncBit 0#5 s))
    ∨ (s.encPhase = .repeatSpace ∧ advance s = enterPhase .stopMark s)
    ∨ (s.encPhase = .bitMark ∧ advance s = enterPhase .bitSpace s)
    ∨ (s.encPhase = .bitSpace ∧ s.encBit = 31#5 ∧ advance s = enterPhase .stopMark s)
    ∨ (s.encPhase = .bitSpace ∧ s.encBit ≠ 31#5 ∧ advance s = enterPhase .bitMark (setEncBit (s.encBit + 1#5) s))
    ∨ (s.encPhase = .stopMark ∧ advance s = present .txDone (enterPhase .idle s))
    ∨ (s.encPhase = .unused ∧ advance s = s) := by
  cases hp : s.encPhase <;> cases hk : s.encKind <;> by_cases hb : s.encBit = 31#5 <;> simp [advance, hp, hk, hb]

/-! ### What the end of a segment leaves alone -/

@[simp] theorem advance_decState (s : State) : (advance s).decState = s.decState := by
  rcases advance_cases s with h | h | h | h | h | h | h | h | h | h <;> simp [h]

@[simp] theorem advance_lastEdgeTimestamp (s : State) : (advance s).lastEdgeTimestamp = s.lastEdgeTimestamp := by
  rcases advance_cases s with h | h | h | h | h | h | h | h | h | h <;> simp [h]

@[simp] theorem advance_bitsAccumulated (s : State) : (advance s).bitsAccumulated = s.bitsAccumulated := by
  rcases advance_cases s with h | h | h | h | h | h | h | h | h | h <;> simp [h]

@[simp] theorem advance_partialFrame (s : State) : (advance s).partialFrame = s.partialFrame := by
  rcases advance_cases s with h | h | h | h | h | h | h | h | h | h <;> simp [h]

@[simp] theorem advance_completedFrame (s : State) : (advance s).completedFrame = s.completedFrame := by
  rcases advance_cases s with h | h | h | h | h | h | h | h | h | h <;> simp [h]

@[simp] theorem advance_frameReady (s : State) : (advance s).frameReady = s.frameReady := by
  rcases advance_cases s with h | h | h | h | h | h | h | h | h | h <;> simp [h]

@[simp] theorem advance_encKind (s : State) : (advance s).encKind = s.encKind := by
  rcases advance_cases s with h | h | h | h | h | h | h | h | h | h <;> simp [h]

@[simp] theorem advance_encFrame (s : State) : (advance s).encFrame = s.encFrame := by
  rcases advance_cases s with h | h | h | h | h | h | h | h | h | h <;> simp [h]

@[simp] theorem advance_refused (s : State) : (advance s).refused = s.refused := by
  rcases advance_cases s with h | h | h | h | h | h | h | h | h | h <;> simp [h]

@[simp] theorem advance_freeDraws (s : State) : (advance s).freeDraws = s.freeDraws := by
  rcases advance_cases s with h | h | h | h | h | h | h | h | h | h <;> simp [h]

@[simp] theorem advance_inputs (s : State) : (advance s).inputs = s.inputs := by
  rcases advance_cases s with h | h | h | h | h | h | h | h | h | h <;> simp [h]

/-- The end of STOP_MARK signals `tx_done`, no other segment's end presents anything (41_encoder.md R74). -/
theorem advance_outputs (s : State) :
    (advance s).outputs = if s.encPhase = .stopMark then .txDone :: s.outputs else s.outputs := by
  rcases advance_cases s with h | h | h | h | h | h | h | h | h | h <;> simp [h]

/-- What a TICK can do (41_encoder.md R68). -/
theorem execTick_cases (s : State) :
    ((s.encPhase = .idle ∨ s.encPhase = .unused) ∧ execTick s = .next s)
    ∨ (s.encPhase ≠ .idle ∧ s.encPhase ≠ .unused ∧ 1 < s.encRemaining.toNat ∧ execTick s = .next (countDown s))
    ∨ (s.encPhase ≠ .idle ∧ s.encPhase ≠ .unused ∧ s.encRemaining.toNat ≤ 1 ∧ execTick s = .next (advance s)) := by
  by_cases h1 : s.encPhase = .idle
  · simp [execTick, h1]
  · by_cases h2 : s.encPhase = .unused
    · simp [execTick, h2]
    · by_cases h3 : 1 < s.encRemaining.toNat
      · simp [execTick, h1, h2, h3]
      · simp [execTick, h1, h2, h3]; omega

/-- What a TX_FRAME can do (41_encoder.md R66, R73). -/
theorem execTxFrame_cases (address : Address) (command : Command) (s : State) :
    (busy s = true ∧ execTxFrame address command s = .next s)
    ∨ (busy s = false ∧ execTxFrame address command s =
        .next (startTransmission .fullFrame { s with encFrame := assembleFrame address command })) := by
  cases h : busy s <;> simp [execTxFrame, hold, h]

/-- What a TX_REPEAT can do (41_encoder.md R67, R73). -/
theorem execTxRepeat_cases (s : State) :
    (busy s = true ∧ execTxRepeat s = .next s)
    ∨ (busy s = false ∧ execTxRepeat s = .next (startTransmission .repeatCode s)) := by
  cases h : busy s <;> simp [execTxRepeat, hold, h]

/-- An event either changes nothing or answers a next state by one of the shared operations: `exec` never stops. -/
theorem exec_answers (i : Instr) (s : State) : ∃ t, exec i s = .next t := by
  cases i with
  | edgeFall now => exact ⟨_, rfl⟩
  | edgeRise now => exact ⟨_, rfl⟩
  | txFrame address command =>
    rcases execTxFrame_cases address command s with ⟨_, h⟩ | ⟨_, h⟩ <;> exact ⟨_, h⟩
  | txRepeat => rcases execTxRepeat_cases s with ⟨_, h⟩ | ⟨_, h⟩ <;> exact ⟨_, h⟩
  | tick => rcases execTick_cases s with ⟨_, h⟩ | ⟨_, _, _, h⟩ | ⟨_, _, _, h⟩ <;> exact ⟨_, h⟩
  | drain => exact ⟨_, rfl⟩
  | reset => exact ⟨_, rfl⟩

/-- A falling edge's action sets `frameReady` exactly when it completes a frame, and never clears it
(43_decoder.md R91, R98). -/
theorem actOnSymbol_frameReady (sym : Symbol) (s : State) :
    (actOnSymbol sym s).frameReady = (s.frameReady || completesFrame sym s) := by
  have hb : ∀ b, (appendBit b s).frameReady = (s.frameReady || (readCount s + 1#6 == 32#6)) := by
    intro b
    rcases appendBit_cases b s with ⟨h, e⟩ | ⟨h, e⟩ <;> simp [e, h]
  cases hd : s.decState <;> cases sym <;> simp [actOnSymbol, completesFrame, hd, hb]

/-! ### Queues -/

@[simp] theorem queueOf_setQueue_same (a : Agent) (ws : List EventWord) (q : Inputs) :
    queueOf a (setQueue a ws q) = ws := by
  cases a <;> rfl

theorem queueOf_setQueue_other {a b : Agent} (h : b ≠ a) (ws : List EventWord) (q : Inputs) :
    queueOf b (setQueue a ws q) = queueOf b q := by
  cases a <;> cases b <;> first | rfl | exact absurd rfl h

@[simp] theorem schedule_setQueue (a : Agent) (ws : List EventWord) (q : Inputs) :
    (setQueue a ws q).schedule = q.schedule := by
  cases a <;> rfl

@[simp] theorem queueOf_schedule (a : Agent) (sch : List Agent) (q : Inputs) :
    queueOf a { q with schedule := sch } = queueOf a q := by
  cases a <;> rfl

/-- An offered word is the oldest of the agent whose turn it is. -/
theorem offered_word_iff (s : State) (a : Agent) (w : EventWord) :
    offered s = .word a w ↔
      s.inputs.schedule.head? = some a ∧ (queueOf a s.inputs).head? = some w := by
  unfold offered
  cases hs : s.inputs.schedule with
  | nil => simp
  | cons b turns =>
    cases hq : queueOf b s.inputs with
    | nil =>
      simp only [hq, reduceCtorEq, List.head?_cons, Option.some.injEq, false_iff, not_and]
      rintro rfl
      simp [hq]
    | cons v vs =>
      simp only [hq, Offer.word.injEq, List.head?_cons, Option.some.injEq]
      constructor
      · rintro ⟨rfl, rfl⟩
        simp [hq]
      · rintro ⟨rfl, h⟩
        simpa [hq] using h

/-- A word just put first by `offerFirst` is the one offered. -/
theorem offered_offerFirst (a : Agent) (w : EventWord) (s : State) :
    offered { s with inputs := offerFirst a w s.inputs } = .word a w := by
  simp [offered_word_iff, offerFirst]

/-! ### No event reads or writes the environment's inputs -/

theorem exec_inputs {i : Instr} {s t : State} (h : exec i s = .next t) : t.inputs = s.inputs := by
  cases i with
  | edgeFall now => simp only [exec, execEdgeFall, Host.Outcome.next.injEq] at h; subst h; simp
  | edgeRise now => simp only [exec, execEdgeRise, Host.Outcome.next.injEq] at h; subst h; simp
  | txFrame address command =>
    simp only [exec, execTxFrame, hold] at h
    split at h <;> simp only [Host.Outcome.next.injEq] at h <;> subst h <;> simp
  | txRepeat =>
    simp only [exec, execTxRepeat, hold] at h
    split at h <;> simp only [Host.Outcome.next.injEq] at h <;> subst h <;> simp
  | tick =>
    rcases execTick_cases s with ⟨_, e⟩ | ⟨_, _, _, e⟩ | ⟨_, _, _, e⟩
    · simp_all [exec]
    · simp only [exec, e, Host.Outcome.next.injEq] at h; subst h; simp
    · simp only [exec, e, Host.Outcome.next.injEq] at h
      subst h
      rcases advance_cases s with h | h | h | h | h | h | h | h | h | h <;> simp [h]
  | drain => simp only [exec, execDrain, Host.Outcome.next.injEq] at h; subst h; simp
  | reset => simp only [exec, execReset, Host.Outcome.next.injEq] at h; subst h; simp

end Sys2Proof.Machine
end

