-- ==== Sys2Proof/Tests/Slice0.lean ====
section
/-! SUPPORT. The model's own tests, with expected results from 95_test_vectors.md, and for each statement with hypotheses
a witness that meets them. -/

namespace Sys2Proof.Tests

open Sys2Proof Sys2Proof.Machine

/-- One thing read from the next state, none where the machine stopped. -/
def after {α : Type} (read : State → α) : Host.Outcome State Fault Refusal → Option α
  | .next s => some (read s)
  | .fault _ => none
  | .refused _ => none

/-! ### Decoding: words written out from the formats (95_test_vectors.md 2.1) -/

theorem test_decode_fall : decode 0x1000000000001194 = .ok (.edgeFall 4500) := by rfl
theorem test_decode_rise : decode 0x20000000FFFFFFFF = .ok (.edgeRise 0xFFFFFFFF) := by rfl
theorem test_decode_tx : decode 0x3000000000991234 = .ok (.txFrame 0x1234 0x99) := by rfl
theorem test_decode_tx_zero_command : decode 0x30000000000000FF = .ok (.txFrame 0x00FF 0x00) := by rfl
theorem test_decode_txr : decode 0x4000000000000000 = .ok .txRepeat := by rfl
theorem test_decode_tick : decode 0x5000000000000000 = .ok .tick := by rfl
theorem test_decode_drain : decode 0x6000000000000000 = .ok .drain := by rfl
theorem test_decode_reset : decode 0x7000000000000000 = .ok .reset := by rfl
theorem test_refuse_op_0 : decode 0x0000000000000000 = .error .reservedOp := by rfl
theorem test_refuse_op_8 : decode 0x8000000000000000 = .error .reservedOp := by rfl
theorem test_refuse_op_15 : decode 0xF000000000000000 = .error .reservedOp := by rfl
theorem test_refuse_op_0_payload : decode 0x0FFFFFFFFFFFFFFF = .error .reservedOp := by rfl
theorem test_refuse_bit_32_of_fall : decode 0x1000000100000000 = .error .reservedBits := by rfl
theorem test_refuse_bit_24_of_tx : decode 0x3000000001000000 = .error .reservedBits := by rfl
theorem test_refuse_bit_0_of_tick : decode 0x5000000000000001 = .error .reservedBits := by rfl
theorem test_encode_p2_fall : encode (.edgeFall 33500) = 0x10000000000082DC := by rfl
theorem test_encode_p2_rise : encode (.edgeRise 29000) = 0x2000000000007148 := by rfl
theorem test_encode_p1_tx : encode (.txFrame 0x1234 0x99) = 0x3000000000991234 := by rfl

/-! ### Well-formedness: one ill-formed line for each check, refused (30_encoding.md R58) -/

theorem test_wf_fall_too_wide : (Line.fall (2 ^ 32)).wellFormed = false := by decide
theorem test_wf_fall_widest : (Line.fall (2 ^ 32 - 1)).wellFormed = true := by decide
theorem test_wf_rise_too_wide : (Line.rise (2 ^ 32)).wellFormed = false := by decide
theorem test_wf_tx_address_too_wide : (Line.tx (2 ^ 16) 0).wellFormed = false := by decide
theorem test_wf_tx_command_too_wide : (Line.tx 0 (2 ^ 8)).wellFormed = false := by decide
theorem test_wf_frame_too_wide : (Line.necFrame 0 (2 ^ 32)).wellFormed = false := by decide
theorem test_assembler_rejects : assembleLine (.tx 0x10000 0) = none := by decide

/-- `TX 0x1234, 0x99 ; x`. -/
theorem test_assembler_text :
    assembleText ['T', 'X', ' ', '0', 'x', '1', '2', '3', '4', ',', ' ', '0', 'x', '9', '9', ' ', ';', 'x']
      = some [0x3000000000991234] := by decide

/-- `MARK 4294967295, 2`: both timestamps modulo 2^32 (R59). -/
theorem test_assembler_mark :
    assembleLine (.mark 4294967295 2) = some [0x10000000FFFFFFFF, 0x2000000000000001] := by decide

/-! ### Small states -/

/-- The decoder in RECEIVING_BITS with a count, a partial frame and a last timestamp. -/
def receiving (n : BitVec 6) (pf : Frame) (last : Timestamp) : State :=
  { State.reset with
    decState := .receivingBits, bitsAccumulated := n, partialFrame := pf, lastEdgeTimestamp := last }

/-- The encoder sending 0x66991234. -/
def sending (p : EncPhase) (bit : BitVec 5) (remaining : BitVec 14) : State :=
  { State.reset with
    encPhase := p, encBit := bit, encRemaining := remaining, encFrame := 0x66991234, emitOn := phaseLevel p }

/-- The mailbox full. -/
def ready (F : Frame) : State := { State.reset with completedFrame := F, frameReady := true }

/-- One agent's turn, with its words. -/
def offering (a : Agent) (ws : List EventWord) (s : State) : State :=
  { s with inputs := setQueue a ws { Inputs.empty with schedule := [a] } }

/-! ### One step of each instruction (95_test_vectors.md 2.3 to 2.6) -/

/-- V-DEC-15: the difference wraps, 304 - 0xFFFFFF00 = 560. -/
theorem test_fall_wraps :
    after (fun t => (t.bitsAccumulated, t.partialFrame, t.lastEdgeTimestamp))
      (exec (.edgeFall 304) (receiving 3 0x5 0xFFFFFF00)) = some (4, 0x5, 304) := by decide

/-- V-DEC-10 without the flag: bit 31 completes. -/
theorem test_fall_completes :
    after (fun t => (t.decState, t.completedFrame, t.frameReady))
      (exec (.edgeFall 51690) (receiving 31 0x7FFFFFFF 50000)) = some (.awaitingStart, 0xFFFFFFFF, true) := by decide

/-- V-DEC-17. -/
theorem test_rise_records :
    after (fun t => (t.decState, t.bitsAccumulated, t.lastEdgeTimestamp))
      (exec (.edgeRise 7560) (receiving 3 0x5 7000)) = some (.receivingBits, 3, 7560) := by decide

/-- 41_encoder.md R66's example. -/
theorem test_tx_loads :
    after (fun t => (t.encFrame, t.encPhase, t.encRemaining, t.emitOn)) (exec (.txFrame 0x1234 0x99) State.reset)
      = some (0x66991234, .leadMark, 9000, true) := by decide

/-- V-HOLD-1. -/
theorem test_tx_held : exec (.txFrame 0x0001 0x02) (sending .bitSpace 3 5) = .next (sending .bitSpace 3 5) := by rfl

/-- V-HOLD-3. -/
theorem test_txr_starts :
    after (fun t => (t.encKind, t.encPhase, t.encRemaining, t.encFrame)) (exec .txRepeat State.reset)
      = some (.repeatCode, .leadMark, 9000, 0) := by decide

/-- V-HOLD-2. -/
theorem test_txr_held : exec .txRepeat (sending .stopMark 31 9) = .next (sending .stopMark 31 9) := by rfl

/-- V-TICK-6: bit 2 of 0x66991234 is 1. -/
theorem test_tick_bit_two_is_one :
    after (fun t => (t.encPhase, t.encRemaining, t.encBit, t.emitOn)) (exec .tick (sending .bitMark 2 1))
      = some (.bitSpace, 1690, 2, false) := by decide

/-- V-TICK-11. -/
theorem test_tick_ends_frame :
    after (fun t => (t.encPhase, t.encRemaining, t.encBit, t.outputs)) (exec .tick (sending .stopMark 31 1))
      = some (.idle, 0, 31, [.txDone]) := by decide

/-- V-PORT-1. -/
theorem test_drain_returns :
    after (fun t => (t.frameReady, t.outputs)) (exec .drain (ready 0x66991234))
      = some (false, [.drained true 0x66991234]) := by decide

/-- V-PORT-4: the Consumer's action on the drained frame. -/
theorem test_bad_checksum_action : consumerAction true 0x67991234 = .checksumFailure 0x99 0x67 0x66 := by decide

/-- V-RST-2: `refused` survives. -/
theorem test_reset_keeps_refused :
    after (fun t => (t.refused, t.encPhase, t.outputs))
      (exec .reset { sending .bitSpace 3 5 with refused := true }) = some (true, .idle, []) := by decide

/-- A refused word is taken and only sets the mark (V-ENC-8). -/
theorem test_step_refuses : after (fun t => (t.refused, t.inputs)) (step (offering .detector [0] State.reset))
    = some (true, Inputs.empty) := by decide

/-- V-HOLD-1: the held word stays its agent's next. -/
theorem test_step_holds :
    after (fun t => t.inputs.issuer) (step (offering .issuer [0x4000000000000000] (sending .bitSpace 3 5)))
      = some [0x4000000000000000] := by decide

/-- `withFetchWord` lets the next step run the word. -/
theorem test_fetch_word : after (fun t => (t.lastEdgeTimestamp, t.inputs))
    (step (State.reset.withFetchWord 64 0x2000000000007148)) = some (29000, Inputs.empty) := by decide

/-! ### Witnesses: each statement's hypotheses can be met, clause by clause -/

theorem witness_EncodeOfDecodedIsTheWord : decode 0x3000000000991234 = .ok (.txFrame 0x1234 0x99) := by rfl

theorem witness_PatternTable_covers :
    (0x100000000000FFFF : EventWord) &&& 0xFFFFFFFF00000000 = 0x1000000000000000 := by decide

/-- A state whose Detector offers a RISE. -/
def riseOffered : State := offering .detector [0x2000000000007148] State.reset

theorem witness_StepRunsTheOfferedEvent :
    riseOffered.inputs.schedule = [.detector] ∧ queueOf .detector riseOffered.inputs = [0x2000000000007148]
      ∧ decode 0x2000000000007148 = .ok (.edgeRise 29000) ∧ held (.edgeRise 29000) riseOffered = false :=
  ⟨by decide, by decide, rfl, by decide⟩

theorem witness_RequestsAreHeldWhileBusy_offered :
    busy (offering .issuer [0x4000000000000000] (sending .leadMark 0 1)) = true
      ∧ (offering .issuer [0x4000000000000000] (sending .leadMark 0 1)).inputs.schedule = [.issuer]
      ∧ queueOf .issuer (offering .issuer [0x4000000000000000] (sending .leadMark 0 1)).inputs = [0x4000000000000000]
      ∧ decode 0x4000000000000000 = .ok .txRepeat ∧ isRequest .txRepeat = true :=
  ⟨by decide, by decide, by decide, rfl, by decide⟩

theorem witness_RequestsAreHeldWhileBusy_lifted :
    busy (sending .stopMark 31 1) = true ∧ (sending .stopMark 31 1).encPhase = .stopMark
      ∧ (sending .stopMark 31 1).encRemaining.toNat ≤ 1 ∧ after busy (exec .tick (sending .stopMark 31 1)) = some false
      ∧ after busy (exec .reset (sending .leadMark 0 9000)) = some false := by decide

theorem witness_StepWithoutAnEvent : State.reset.inputs.schedule = []
    ∧ (offering .issuer [] State.reset).inputs.schedule = [.issuer]
    ∧ queueOf .issuer (offering .issuer [] State.reset).inputs = [] := by decide

theorem witness_RefusedWordOnlySetsTheMark :
    (offering .detector [0] State.reset).inputs.schedule = [.detector]
      ∧ queueOf .detector (offering .detector [0] State.reset).inputs = [0]
      ∧ decode 0 = .error .reservedOp := ⟨by decide, by decide, rfl⟩

theorem witness_RefusedMarkIsSticky : after State.refused (step (offering .reset [0x7000000000000000]
      { State.reset with refused := true })) = some true
    ∧ after State.refused (step (offering .reset [0x7000000000000000] State.reset)) = some false := by decide

theorem witness_EachAgentsOrderIsKept :
    after (fun t => queueOf .consumer t.inputs) (step (offering .consumer [0x6000000000000000, 5] State.reset))
      = some [5] := by decide

theorem witness_StepsFollowTheTotalOrder : NoneHeld [.txRepeat, .tick, .edgeRise 5] State.reset :=
  ⟨rfl, rfl, rfl, trivial⟩

theorem witness_RefusalStaysVisible :
    after State.refused (Host.Core.run Sys2Proof.core 2 riseOffered) = some false := by decide

theorem witness_StepKeepsTheStateInvariant :
    StateInv (offering .timebase [0x5000000000000000] State.reset)
      ∧ after State.encPhase (step (offering .timebase [0x5000000000000000] State.reset)) = some .idle := by decide

theorem witness_StateInv_while_busy : StateInv (receiving 5 0x14 100000) ∧ StateInv (sending .bitSpace 2 1690) :=
  ⟨by decide, by decide⟩

theorem witness_StepKeepsAgentsOwnEvents : OwnEvents Inputs.empty := by
  intro a w hw
  cases a <;> simp [queueOf, Inputs.empty] at hw

theorem witness_FallInAwaitingStart_leading :
    State.reset.decState = .awaitingStart
      ∧ 4001 = ((4001#32).toNat + 2 ^ 32 - State.reset.lastEdgeTimestamp.toNat) % 2 ^ 32
      ∧ (4000 < 4001 ∧ 4001 < 5000) := by decide

theorem witness_FallInAwaitingStart_other :
    State.reset.decState = .awaitingStart
      ∧ 5000 = ((5000#32).toNat + 2 ^ 32 - State.reset.lastEdgeTimestamp.toNat) % 2 ^ 32
      ∧ ¬ (4000 < 5000 ∧ 5000 < 5000) := by decide

theorem witness_FallAppendsABitOrCompletes_append :
    (receiving 30 0 7000).decState = .receivingBits
      ∧ 401 = ((7401#32).toNat + 2 ^ 32 - (receiving 30 0 7000).lastEdgeTimestamp.toNat) % 2 ^ 32
      ∧ (400 < 401 ∧ 401 < 800) ∧ (receiving 30 0 7000).bitsAccumulated.toNat < 31 := by decide

theorem witness_FallAppendsABitOrCompletes_complete :
    (receiving 31 0 7000).decState = .receivingBits
      ∧ 1899 = ((8899#32).toNat + 2 ^ 32 - (receiving 31 0 7000).lastEdgeTimestamp.toNat) % 2 ^ 32
      ∧ (1500 < 1899 ∧ 1899 < 1900) ∧ (receiving 31 0 7000).bitsAccumulated.toNat = 31 := by decide

theorem witness_FallAbortsOnAnyOtherDuration :
    (receiving 12 0xABC 7000).decState = .receivingBits
      ∧ 800 = ((7800#32).toNat + 2 ^ 32 - (receiving 12 0xABC 7000).lastEdgeTimestamp.toNat) % 2 ^ 32
      ∧ ¬ (400 < 800 ∧ 800 < 800) ∧ ¬ (1500 < 800 ∧ 800 < 1900) := by decide

/-- The first clause, at the highest count, one bit short of completion. -/
theorem witness_CountStaysReachable_kept :
    (receiving 31 0 7000).bitsAccumulated.toNat ≤ 31 ∧ ∃ t, exec (.edgeFall 7560) (receiving 31 0 7000) = .next t :=
  ⟨by decide, _, rfl⟩

/-- The clauses on LEADING and on an abort, each at a bound of its window. -/
theorem witness_CountStaysReachable_zero :
    (State.reset.decState = .awaitingStart
        ∧ 4001 = ((4001#32).toNat + 2 ^ 32 - State.reset.lastEdgeTimestamp.toNat) % 2 ^ 32 ∧ 4001 < 5000)
      ∧ (receiving 31 0 7000).decState = .receivingBits
      ∧ 400 = ((7400#32).toNat + 2 ^ 32 - (receiving 31 0 7000).lastEdgeTimestamp.toNat) % 2 ^ 32
      ∧ ¬ (400 < 400 ∧ 400 < 800) ∧ ¬ (1500 < 400 ∧ 400 < 1900) := by decide

/-- The two ends of each range of R83 (V-CLS). -/
theorem witness_ClassifierPartition :
    [0, 400, 401, 799, 800, 1500, 1501, 1899, 1900, 2000, 2001, 2499, 2500, 4000, 4001, 4999, 5000, 4294967295].map
        (fun d => classify (BitVec.ofNat 32 d))
      = [.invalid, .invalid, .zero, .zero, .invalid, .invalid, .one, .one, .invalid, .invalid,
         .repeated, .repeated, .invalid, .invalid, .leading, .leading, .invalid, .invalid] := by decide

theorem witness_BackwardTimestampIsInvalid :
    (0 < 1 ∧ 1 ≤ 2 ^ 32 - 5000) ∧ (0 < 2 ^ 32 - 5000 ∧ 2 ^ 32 - 5000 ≤ 2 ^ 32 - 5000) := by decide

theorem witness_EveryFrameIsReceived :
    ((necFrame 20000 0).take 66 ++ Instr.edgeFall 69340 :: [Instr.tick, Instr.edgeRise 69900]).filter
        (fun i => agentOf i == .detector) = necFrame 20000 0
      ∧ .reset ∉ (necFrame 20000 0).take 66
      ∧ (∀ x, Instr.edgeFall x ∉ [Instr.tick, .edgeRise 69900])
      ∧ .drain ∉ [Instr.tick, .edgeRise 69900] ∧ .reset ∉ [Instr.tick, .edgeRise 69900]
      ∧ State.reset.decState = .awaitingStart
      ∧ classify (edgeDuration 20000 State.reset.lastEdgeTimestamp) ≠ .leading :=
  ⟨by decide +kernel, by decide +kernel, by simp, by decide, by decide, by decide, by decide⟩

theorem witness_EveryFrameIsReceived_receiving :
    (receiving 17 0 0).decState = .receivingBits
      ∧ classify (edgeDuration 2250 (receiving 17 0 0).lastEdgeTimestamp) ≠ .zero
      ∧ classify (edgeDuration 2250 (receiving 17 0 0).lastEdgeTimestamp) ≠ .one := by decide

theorem witness_MisreadIdleLosesTheFrame :
    (State.reset.decState = .awaitingStart
        ∧ classify (edgeDuration 4999 State.reset.lastEdgeTimestamp) = .leading)
      ∧ ((receiving 30 0 0).decState = .receivingBits ∧ (receiving 30 0 0).bitsAccumulated.toNat < 31
        ∧ classify (edgeDuration 560 (receiving 30 0 0).lastEdgeTimestamp) = .zero) := by decide

theorem witness_RepeatCodeIsIgnored :
    State.reset.decState = .awaitingStart
      ∧ classify (edgeDuration 5000 State.reset.lastEdgeTimestamp) ≠ .leading := by decide

/-- 33 FALLs with the shortest spaces that count: the bound of R153 is met exactly. -/
def shortestFrame : List TimedEdge := (List.range 33).map (fun k => ⟨true, 4001 + 401 * k⟩)

theorem shortestFrame_inOrder : EdgesInOrder 0 shortestFrame := by
  simp [shortestFrame, List.range_succ, EdgesInOrder]

theorem witness_CompletionsAreFarApart :
    State.reset.decState = .awaitingStart ∧ State.reset.lastEdgeTimestamp = BitVec.ofNat 32 0
      ∧ State.reset.frameReady = false
      ∧ after State.frameReady (runEvents (shortestFrame.map TimedEdge.event) State.reset) = some true
      ∧ lastTime 0 shortestFrame = 16833 := by decide +kernel

theorem witness_ErrorConditions :
    .timing ∈ eventErrors (.edgeFall 8000) (receiving 12 0xABC 7000)
      ∧ .repeatAbort ∈ eventErrors (.edgeFall 9250) (receiving 12 0xABC 7000)
      ∧ .noise ∈ eventErrors (.edgeFall 300) State.reset
      ∧ .overrun ∈ eventErrors (.edgeFall 50560) { receiving 31 0 50000 with frameReady := true } := by decide

theorem witness_FrameRequest : busy State.reset = false ∧ busy (sending .leadMark 0 1) = true := by decide

theorem witness_TickFollowsTheTable :
    State.reset.encPhase = .idle
      ∧ ((sending .leadMark 0 2).encPhase ≠ .idle ∧ (sending .leadMark 0 2).encPhase ≠ .unused
        ∧ 1 < (sending .leadMark 0 2).encRemaining.toNat)
      ∧ (sending .leadMark 0 1).encKind = .fullFrame ∧ (sending .leadMark 0 1).encRemaining.toNat ≤ 1
      ∧ { sending .leadMark 0 1 with encKind := .repeatCode }.encKind = .repeatCode
      ∧ (sending .leadSpace 0 1).encPhase = .leadSpace ∧ (sending .repeatSpace 0 1).encPhase = .repeatSpace
      ∧ (sending .bitMark 0 1).encPhase = .bitMark ∧ (sending .bitSpace 31 1).encBit = 31
      ∧ (sending .bitSpace 30 1).encBit ≠ 31 ∧ (sending .stopMark 31 0).encRemaining.toNat ≤ 1 := by decide

theorem witness_UnusedPhaseIsStuck : (sending .unused 0 0).encPhase = .unused := by decide

theorem witness_TxDoneOncePerAcceptedRequest :
    .reset ∉ [Instr.txRepeat, .tick] ∧ after busy (runEvents [.txRepeat, .tick] State.reset) = some true := by decide

theorem witness_SecondDrainReturnsNotReady :
    after State.frameReady (exec .drain (ready 7)) = some false
      ∧ NoCompletion [.edgeRise 5] { ready 7 with frameReady := false, outputs := [.drained true 7] } :=
  ⟨by decide, rfl, trivial⟩

theorem witness_ChecksumIgnoresTheAddress : (0x66991234 : Frame).toNat / 2 ^ 16 = (0x6699FFFF : Frame).toNat / 2 ^ 16 := by decide

theorem witness_WhoWritesWhat :
    (∃ t, exec (.edgeFall 50560) (receiving 31 0 50000) = .next t ∧ t.frameReady = true)
      ∧ (∃ t, exec .drain (ready 7) = .next t ∧ t.frameReady = false)
      ∧ (∃ t, exec .tick (sending .stopMark 31 1) = .next t ∧ t.outputs = [.txDone])
      ∧ decoderPart State.reset = decoderPart (sending .bitMark 3 5)
      ∧ encoderPart State.reset = encoderPart (receiving 3 5 7) :=
  ⟨⟨_, rfl, by decide⟩, ⟨_, rfl, by decide⟩, ⟨_, rfl, by decide⟩, by decide, by decide⟩

end Sys2Proof.Tests
end

section
/-! PROOF. What one event does and what one step does, each said once: an inductive relation with one constructor for
each way it can go, and the lemmas that tie it to `exec` and `step`. -/

namespace Sys2Proof.Machine

/-! ### One event -/

/-- The transition of an event as a relation (00_scope.md R10): one constructor for each way it can go, with the
condition under which it does. -/
inductive EventEffect (s : State) : Instr → State → Prop
  | fall (now : Timestamp) :
      EventEffect s (.edgeFall now)
        (recordEdge now (actOnSymbol (classify (edgeDuration now s.lastEdgeTimestamp)) s))
  | rise (now : Timestamp) : EventEffect s (.edgeRise now) (recordEdge now s)
  | frameHeld (address : Address) (command : Command) (hbusy : busy s = true) :
      EventEffect s (.txFrame address command) s
  | frameStarts (address : Address) (command : Command) (hidle : busy s = false) :
      EventEffect s (.txFrame address command)
        (startTransmission .fullFrame { s with encFrame := assembleFrame address command })
  | repeatHeld (hbusy : busy s = true) : EventEffect s .txRepeat s
  | repeatStarts (hidle : busy s = false) : EventEffect s .txRepeat (startTransmission .repeatCode s)
  | tickRests (hrest : s.encPhase = .idle ∨ s.encPhase = .unused) : EventEffect s .tick s
  | tickCounts (hidle : s.encPhase ≠ .idle) (hunused : s.encPhase ≠ .unused) (hmore : 1 < s.encRemaining.toNat) :
      EventEffect s .tick (countDown s)
  | tickEnds (hidle : s.encPhase ≠ .idle) (hunused : s.encPhase ≠ .unused) (hlast : s.encRemaining.toNat ≤ 1) :
      EventEffect s .tick (advance s)
  | drain : EventEffect s .drain (present (.drained s.frameReady s.completedFrame) (clearReady s))
  | reset : EventEffect s .reset (resetElements s)

/-- Every event goes one of the ways of `EventEffect`. -/
theorem eventEffect_of_exec {i : Instr} {s t : State} (h : exec i s = .next t) : EventEffect s i t := by
  cases i with
  | edgeFall now => cases h; exact .fall now
  | edgeRise now => cases h; exact .rise now
  | txFrame address command =>
    rcases execTxFrame_cases address command s with ⟨hb, e⟩ | ⟨hb, e⟩ <;> cases e.symm.trans h
    · exact .frameHeld address command hb
    · exact .frameStarts address command hb
  | txRepeat =>
    rcases execTxRepeat_cases s with ⟨hb, e⟩ | ⟨hb, e⟩ <;> cases e.symm.trans h
    · exact .repeatHeld hb
    · exact .repeatStarts hb
  | tick =>
    rcases execTick_cases s with ⟨hp, e⟩ | ⟨hi, hu, hr, e⟩ | ⟨hi, hu, hr, e⟩ <;> cases e.symm.trans h
    · exact .tickRests hp
    · exact .tickCounts hi hu hr
    · exact .tickEnds hi hu hr
  | drain => cases h; exact .drain
  | reset => cases h; exact .reset

/-- What `EventEffect` allows is what the event does: its conditions exclude one another. -/
theorem exec_of_eventEffect {i : Instr} {s t : State} (h : EventEffect s i t) : exec i s = .next t := by
  cases h with
  | fall now => rfl
  | rise now => rfl
  | frameHeld address command hbusy => simp [exec, execTxFrame, hold, hbusy]
  | frameStarts address command hidle => simp [exec, execTxFrame, hidle]
  | repeatHeld hbusy => simp [exec, execTxRepeat, hold, hbusy]
  | repeatStarts hidle => simp [exec, execTxRepeat, hidle]
  | tickRests hrest => rcases hrest with hp | hp <;> simp [exec, execTick, hp]
  | tickCounts hidle hunused hmore => simp [exec, execTick, hidle, hunused, hmore]
  | tickEnds hidle hunused hlast => simp [exec, execTick, hidle, hunused, Nat.not_lt.2 hlast]
  | drain => rfl
  | reset => rfl

/-- An event's next state is the one its effect names. -/
theorem eq_of_eventEffect {i : Instr} {s t u : State} (h : exec i s = .next t) (hu : EventEffect s i u) : t = u := by
  cases h.symm.trans (exec_of_eventEffect hu)
  rfl

/-- A held event changes nothing (41_encoder.md R73). -/
theorem exec_of_held {i : Instr} {s : State} (h : held i s = true) : exec i s = .next s := by
  cases i with
  | txFrame address command => exact exec_of_eventEffect (.frameHeld address command h)
  | txRepeat => exact exec_of_eventEffect (.repeatHeld h)
  | edgeFall _ | edgeRise _ | tick | drain | reset => cases h

/-- No event touches the mark: it is for words that are no event (10_state.md R29, 30_encoding.md R56). -/
theorem exec_refused {i : Instr} {s t : State} (h : exec i s = .next t) : t.refused = s.refused := by
  cases eventEffect_of_exec h <;> simp

/-- What an event leaves in `frameReady`: DRAIN and RESET clear it, a completion sets it, nothing else touches it
(10_state.md R19, R20). -/
theorem exec_frameReady {i : Instr} {s t : State} (h : exec i s = .next t) :
    t.frameReady = if i = .drain ∨ i = .reset then false else (s.frameReady || completes i s) := by
  cases eventEffect_of_exec h with
  | fall now => simp [completes, actOnSymbol_frameReady]
  | rise | frameHeld | frameStarts | repeatHeld | repeatStarts | tickRests | tickCounts | tickEnds =>
    simp [completes]
  | drain | reset => simp

/-- Only an EDGE_FALL completes a frame (43_decoder.md R98). -/
theorem eq_edgeFall_of_completes {i : Instr} {s : State} (h : completes i s = true) : ∃ now, i = .edgeFall now := by
  cases i with
  | edgeFall now => exact ⟨now, rfl⟩
  | edgeRise _ | txFrame _ _ | txRepeat | tick | drain | reset => cases h

/-- What an event presents (10_state.md R33). -/
theorem exec_outputs {i : Instr} {s t : State} (h : exec i s = .next t) :
    t.outputs =
      if i = .drain then .drained s.frameReady s.completedFrame :: s.outputs
      else if i = .tick ∧ s.encPhase = .stopMark ∧ s.encRemaining.toNat ≤ 1 then .txDone :: s.outputs
      else s.outputs := by
  cases eventEffect_of_exec h with
  | tickRests hrest => rcases hrest with hp | hp <;> simp [hp]
  | tickCounts _ _ hmore => simp [hmore]
  | tickEnds _ _ hlast => simp [advance_outputs, hlast]
  | fall | rise | frameHeld | frameStarts | repeatHeld | repeatStarts | drain | reset => simp

/-! ### One step -/

/-- The outcome of a turn as a relation: one constructor for each thing the schedule's next turn can bring
(30_encoding.md R56, R62, 41_encoder.md R73, 60_exceptions.md R131). -/
inductive StepEffect (s : State) : State → Prop
  | quiet (hoffer : offered s = .quiet) : StepEffect s s
  | absent (hoffer : offered s = .absent) : StepEffect s (passTurn s)
  | refused {a : Agent} {w : EventWord} {e : DecodeError} (hoffer : offered s = .word a w)
      (hdecode : decode w = .error e) : StepEffect s (refuseWord (takeWord a s))
  | held {a : Agent} {w : EventWord} {i : Instr} (hoffer : offered s = .word a w) (hdecode : decode w = .ok i)
      (hheld : held i s = true) : StepEffect s (passTurn s)
  | accepted {a : Agent} {w : EventWord} {i : Instr} {t : State} (hoffer : offered s = .word a w)
      (hdecode : decode w = .ok i) (hheld : held i s = false) (hexec : exec i (takeWord a s) = .next t) :
      StepEffect s t

/-- Whether an event is held does not depend on the environment's inputs. -/
theorem held_passTurn (i : Instr) (s : State) : held i (passTurn s) = held i s := by
  cases i <;> rfl

/-- Every step goes one of the ways of `StepEffect`. -/
theorem stepEffect_of_step {s t : State} (h : step s = .next t) : StepEffect s t := by
  cases ho : offered s with
  | quiet => simp only [step, ho] at h; cases h; exact .quiet ho
  | absent => simp only [step, ho] at h; cases h; exact .absent ho
  | word a w =>
    cases hd : decode w with
    | error e => simp only [step, ho, hd] at h; cases h; exact .refused ho hd
    | ok i =>
      cases hh : held i s with
      | true =>
        have hstay : exec i (passTurn s) = .next (passTurn s) := exec_of_held ((held_passTurn i s).trans hh)
        simp only [step, ho, hd, hh, if_true, hstay] at h
        cases h
        exact .held ho hd hh
      | false =>
        refine .accepted ho hd hh ?_
        simpa [step, ho, hd, hh] using h

end Sys2Proof.Machine
end

section
/-! PROOF. The two parts of the state (60_exceptions.md R132): the encoder's events leave the decoder's part alone, and
what an event makes of the encoder's part depends on that part only. -/

namespace Sys2Proof.Machine

/-! ### The decoder's part is untouched by the encoder's operations -/

@[simp] theorem decoderPart_startTransmission (k : EncKind) (s : State) :
    decoderPart (startTransmission k s) = decoderPart s := rfl

@[simp] theorem decoderPart_countDown (s : State) : decoderPart (countDown s) = decoderPart s := rfl

@[simp] theorem decoderPart_advance (s : State) : decoderPart (advance s) = decoderPart s := by
  simp [decoderPart]

/-- TX_FRAME, TX_REPEAT and TICK change nothing of the decoder (10_state.md R20). -/
theorem decoderPart_exec_of_encoder_event {i : Instr} {s t : State} (h : exec i s = .next t)
    (hi : agentOf i = .issuer ∨ agentOf i = .timebase) : decoderPart t = decoderPart s := by
  cases eventEffect_of_exec h with
  | fall | rise | drain | reset => simp [agentOf] at hi
  | frameHeld | repeatHeld | tickRests => rfl
  | frameStarts address command => rfl
  | repeatStarts => exact decoderPart_startTransmission .repeatCode s
  | tickCounts => exact decoderPart_countDown s
  | tickEnds => exact decoderPart_advance s

/-- A DRAIN changes nothing of the decoder but `frameReady` (44_frame_port.md R105). -/
theorem decoderPart_exec_drain {s t : State} (h : exec .drain s = .next t) :
    decoderPart t = { decoderPart s with frameReady := false } := by
  cases h
  rfl

/-- Only the Detector's events and RESET write the decoder's assembly or `completedFrame` (10_state.md R20). -/
theorem exec_keeps_assembly {i : Instr} {s t : State} (h : exec i s = .next t)
    (hdet : agentOf i ≠ .detector) (hreset : agentOf i ≠ .reset) :
    t.decState = s.decState ∧ t.bitsAccumulated = s.bitsAccumulated ∧ t.partialFrame = s.partialFrame
      ∧ t.lastEdgeTimestamp = s.lastEdgeTimestamp ∧ t.completedFrame = s.completedFrame := by
  cases i with
  | edgeFall _ | edgeRise _ => exact absurd rfl hdet
  | reset => exact absurd rfl hreset
  | txFrame _ _ | txRepeat | tick =>
    have hpart := decoderPart_exec_of_encoder_event h (by simp [agentOf])
    simp_all [decoderPart]
  | drain =>
    have hpart := decoderPart_exec_drain h
    simp_all [decoderPart]

/-! ### The encoder's part depends on itself only -/

/-- Two states agree on the encoder's part exactly when they agree on each of its elements. -/
theorem encoderPart_eq_iff {s s' : State} :
    encoderPart s = encoderPart s' ↔
      s.encPhase = s'.encPhase ∧ s.encKind = s'.encKind ∧ s.encBit = s'.encBit
        ∧ s.encRemaining = s'.encRemaining ∧ s.encFrame = s'.encFrame ∧ s.emitOn = s'.emitOn := by
  simp [encoderPart]

@[simp] theorem encoderPart_recordEdge (now : Timestamp) (s : State) :
    encoderPart (recordEdge now s) = encoderPart s := rfl

@[simp] theorem encoderPart_actOnSymbol (sym : Symbol) (s : State) :
    encoderPart (actOnSymbol sym s) = encoderPart s := by
  simp [encoderPart]

@[simp] theorem encoderPart_clearReady (s : State) : encoderPart (clearReady s) = encoderPart s := rfl

@[simp] theorem encoderPart_present (o : OutputEvent) (s : State) : encoderPart (present o s) = encoderPart s := rfl

section
variable {s s' : State} (he : encoderPart s = encoderPart s')
include he

theorem encoderPart_enterPhase_congr (p : EncPhase) :
    encoderPart (enterPhase p s) = encoderPart (enterPhase p s') := by
  simp_all [encoderPart_eq_iff]

theorem encoderPart_setEncBit_congr (b : BitVec 5) :
    encoderPart (setEncBit b s) = encoderPart (setEncBit b s') := by
  simp_all [encoderPart_eq_iff]

theorem encoderPart_countDown_congr : encoderPart (countDown s) = encoderPart (countDown s') := by
  simp_all [encoderPart_eq_iff]

theorem busy_congr : busy s = busy s' := by
  simp_all [encoderPart_eq_iff, busy]

/-- Which segment comes next is read from `enc_phase`, `enc_kind` and `enc_bit` alone (41_encoder.md R69). -/
theorem encoderPart_advance_congr : encoderPart (advance s) = encoderPart (advance s') := by
  obtain ⟨hp, hk, hb, -⟩ := encoderPart_eq_iff.1 he
  simp only [advance, ← hp, ← hk, ← hb]
  cases s.encPhase with
  | idle | unused => exact he
  | leadMark => cases s.encKind <;> exact encoderPart_enterPhase_congr he _
  | leadSpace => exact encoderPart_enterPhase_congr (encoderPart_setEncBit_congr he _) _
  | repeatSpace | bitMark | stopMark => exact encoderPart_enterPhase_congr he _
  | bitSpace =>
    dsimp only
    split
    · exact encoderPart_enterPhase_congr he _
    · exact encoderPart_enterPhase_congr (encoderPart_setEncBit_congr he _) _

/-- What an event makes of the encoder's part is a function of that part: it goes the same way in both states. -/
theorem encoderPart_exec_congr {i : Instr} {t t' : State} (h : exec i s = .next t) (h' : exec i s' = .next t') :
    encoderPart t = encoderPart t' := by
  obtain ⟨hp, -, -, hr, hf, -⟩ := encoderPart_eq_iff.1 he
  have hb := busy_congr he
  cases eventEffect_of_exec h with
  | fall now => rw [eq_of_eventEffect h' (.fall now)]; simpa using he
  | rise now => rw [eq_of_eventEffect h' (.rise now)]; simpa using he
  | frameHeld address command hbusy => rwa [eq_of_eventEffect h' (.frameHeld address command (hb ▸ hbusy))]
  | frameStarts address command hidle =>
    rw [eq_of_eventEffect h' (.frameStarts address command (hb ▸ hidle))]
    simp [encoderPart_eq_iff]
  | repeatHeld hbusy => rwa [eq_of_eventEffect h' (.repeatHeld (hb ▸ hbusy))]
  | repeatStarts hidle =>
    rw [eq_of_eventEffect h' (.repeatStarts (hb ▸ hidle))]
    simp [encoderPart_eq_iff, hf]
  | tickRests hrest => rwa [eq_of_eventEffect h' (.tickRests (hp ▸ hrest))]
  | tickCounts hidle hunused hmore =>
    rw [eq_of_eventEffect h' (.tickCounts (hp ▸ hidle) (hp ▸ hunused) (hr ▸ hmore))]
    exact encoderPart_countDown_congr he
  | tickEnds hidle hunused hlast =>
    rw [eq_of_eventEffect h' (.tickEnds (hp ▸ hidle) (hp ▸ hunused) (hr ▸ hlast))]
    exact encoderPart_advance_congr he
  | drain => rw [eq_of_eventEffect h' .drain]; simpa using he
  | reset => rw [eq_of_eventEffect h' .reset]; rfl

/-- What an encoder event signals is read from the encoder's part and the record alone (10_state.md R20). -/
theorem outputs_exec_congr {i : Instr} {t t' : State} (hi : agentOf i = .issuer ∨ agentOf i = .timebase)
    (h : exec i s = .next t) (h' : exec i s' = .next t') (ho : s.outputs = s'.outputs) : t.outputs = t'.outputs := by
  obtain ⟨hp, -, -, hr, -⟩ := encoderPart_eq_iff.1 he
  have hdrain : i ≠ .drain := by rintro rfl; simp [agentOf] at hi
  rw [exec_outputs h, exec_outputs h', if_neg hdrain, if_neg hdrain, hp, hr, ho]

end

end Sys2Proof.Machine
end

section
/-! PROOF. The statements of 10_state.md. -/

namespace Sys2Proof.Machine

/-- Settles O11: an Invalid word sets the mark, no other turn touches it. -/
theorem refusedMarkIsSticky : Obligations.RefusedMarkIsSticky := by
  intro s t h
  cases stepEffect_of_step h with
  | quiet hoffer => simp [hoffer]
  | absent hoffer => simp [hoffer]
  | refused hoffer hdecode => simpa using .inr ⟨_, _, hoffer, _, hdecode⟩
  | held hoffer hdecode => simp [hoffer, hdecode]
  | accepted hoffer hdecode _ hexec => simp [exec_refused hexec, hoffer, hdecode]

/-- Settles O50: ownership from the decoder's part and `frameReady` after each event; that no encoder event reads a
decoder element, by two states that agree on the encoder. -/
theorem decoderElementsHaveTheirOwners : Obligations.DecoderElementsHaveTheirOwners := by
  refine ⟨fun i s t h => ⟨?_, ?_, ?_, decoderPart_exec_of_encoder_event h⟩, fun i s s' t t' hi h h' he ho =>
    ⟨encoderPart_exec_congr he h h', outputs_exec_congr he hi h h' ho⟩⟩
  · by_cases hdet : agentOf i = .detector
    · exact .inl hdet
    · by_cases hreset : agentOf i = .reset
      · exact .inr (.inl hreset)
      · exact .inr (.inr (exec_keeps_assembly h hdet hreset))
  · intro hclear hset
    have hcompletes : completes i s = true := by simp_all [exec_frameReady h]
    exact eq_edgeFall_of_completes hcompletes
  · intro hset hclear
    by_contra hother
    simp [exec_frameReady h, hother, hset] at hclear

/-- Settles O54, event by event. -/
theorem onlyDrainAndTheLastTickPresentOutputs : Obligations.OnlyDrainAndTheLastTickPresentOutputs :=
  fun _ _ _ => exec_outputs

/-- Settles O45: each port is by definition its row of the table. -/
theorem portsShowTheState : Obligations.PortsShowTheState := fun _ => rfl

/-- Settles O48: the reset state's fields are the table's, and RESET writes them over any state. -/
theorem resetValuesOfEveryElement : Obligations.ResetValuesOfEveryElement := by
  refine ⟨rfl, rfl, rfl, rfl, rfl, rfl, rfl, rfl, rfl, rfl, rfl, rfl, rfl, fun s t h => ?_⟩
  cases eq_of_eventEffect h .reset
  exact ⟨rfl, rfl, resetElements_refused s⟩

end Sys2Proof.Machine
end

section
/-! PROOF. The words and frames put together from shifted fields, as arithmetic on their numbers (30_encoding.md R51,
41_encoder.md R66), and the decoding of a word of format A. -/

namespace Sys2Proof

/-- A field shifted above everything the rest holds adds to it, when it fits. -/
theorem toNat_shiftLeft_or {w : Nat} (high low : BitVec w) (k : Nat) (hfit : high.toNat * 2 ^ k < 2 ^ w)
    (hlow : low.toNat < 2 ^ k) : (high <<< k ||| low).toNat = high.toNat * 2 ^ k + low.toNat := by
  rw [BitVec.toNat_or, BitVec.toNat_shiftLeft, Nat.shiftLeft_eq, Nat.mod_eq_of_lt hfit, ← Nat.shiftLeft_eq,
    Nat.shiftLeft_add_eq_or_of_lt hlow]

/-- The low 24 bits that a word of format A and a frame have in common: the command above the address. -/
theorem toNat_command_or_address {w : Nat} (hw : 24 ≤ w) (address : Address) (command : Command) :
    (command.setWidth w <<< 16 ||| address.setWidth w).toNat = command.toNat * 2 ^ 16 + address.toNat := by
  have ha := address.isLt
  have hc := command.isLt
  have hpow : 2 ^ 24 ≤ 2 ^ w := Nat.pow_le_pow_right (by decide) hw
  have hc' : (command.setWidth w).toNat = command.toNat := BitVec.toNat_setWidth_of_le (by omega)
  have ha' : (address.setWidth w).toNat = address.toNat := BitVec.toNat_setWidth_of_le (by omega)
  rw [toNat_shiftLeft_or _ _ 16 (by omega) (by omega), hc', ha']

theorem toNat_formatA (op : BitVec 4) (address : Address) (command : Command) :
    (formatA op address command).toNat = op.toNat * 2 ^ 60 + command.toNat * 2 ^ 16 + address.toNat := by
  have ho := op.isLt
  have ha := address.isLt
  have hc := command.isLt
  have ho' : (op.setWidth 64).toNat = op.toNat := BitVec.toNat_setWidth_of_le (by decide)
  have hlow := toNat_command_or_address (w := 64) (by decide) address command
  rw [formatA, BitVec.or_assoc, toNat_shiftLeft_or _ _ 60 (by omega) (by omega), ho', hlow, Nat.add_assoc]

/-- A word of format A written as a number: `op << 60 | command << 16 | address` (30_encoding.md R58). -/
theorem formatA_eq_ofNat (op : BitVec 4) (address : Address) (command : Command) :
    formatA op address command = BitVec.ofNat 64 (op.toNat * 2 ^ 60 + command.toNat * 2 ^ 16 + address.toNat) := by
  rw [← toNat_formatA, BitVec.ofNat_toNat, BitVec.setWidth_eq]

/-- A word of format A with TX_FRAME's `op` decodes to TX_FRAME of its operands (30_encoding.md R51, R54). -/
theorem decode_formatA_txFrame (address : Address) (command : Command) :
    decode (formatA 3#4 address command) = .ok (.txFrame address command) := by
  simp [decode, Laws.OpField.opField_formatA, reservedA_formatA, addressField_formatA, commandField_formatA,
    unlessReserved]

namespace Machine

theorem toNat_assembleFrame (address : Address) (command : Command) :
    (assembleFrame address command).toNat
      = address.toNat + command.toNat * 2 ^ 16 + (255 - command.toNat) * 2 ^ 24 := by
  have ha := address.isLt
  have hc := command.isLt
  have hinv : ((invertedCommand command).setWidth 32).toNat = 255 - command.toNat := by
    rw [BitVec.toNat_setWidth_of_le (by decide), invertedCommand, BitVec.toNat_not]
  have hlow := toNat_command_or_address (w := 32) (by decide) address command
  rw [assembleFrame, BitVec.or_comm, BitVec.or_comm (address.setWidth 32),
    toNat_shiftLeft_or _ _ 24 (by omega) (by omega), hinv, hlow]
  omega

/-- The frame TX_FRAME sends, written as a number (41_encoder.md R66). -/
theorem assembleFrame_eq_ofNat (address : Address) (command : Command) :
    assembleFrame address command
      = BitVec.ofNat 32 (address.toNat + command.toNat * 2 ^ 16 + (255 - command.toNat) * 2 ^ 24) := by
  rw [← toNat_assembleFrame, BitVec.ofNat_toNat, BitVec.setWidth_eq]

end Machine

end Sys2Proof
end

section
/-! PROOF. What a TICK makes of a state whose segment ends (41_encoder.md R68, R69), one lemma for each row of the
table. -/

namespace Sys2Proof.Machine

/-- A TICK that finds at most one microsecond left in a timed phase goes where `advance` goes (41_encoder.md R68). -/
theorem exec_tick_of_segment_ends {s t : State} {p : EncPhase} (hlast : s.encRemaining.toNat ≤ 1)
    (hp : s.encPhase = p) (htimed : p ≠ .idle ∧ p ≠ .unused) (hrow : advance s = t) : exec .tick s = .next t :=
  hrow ▸ exec_of_eventEffect (.tickEnds (hp ▸ htimed.1) (hp ▸ htimed.2) hlast)

/-- The duration BIT_SPACE loads for a bit, as the 14-bit word it is kept in (41_encoder.md R64). -/
theorem ofNat_bitSpaceMicros (b : Bool) : BitVec.ofNat 14 (bitSpaceMicros b) = if b then 1690 else 560 := by
  cases b <;> rfl

section
variable {s : State} (hlast : s.encRemaining.toNat ≤ 1)
include hlast

theorem exec_tick_ends_leadMark_of_fullFrame (hp : s.encPhase = .leadMark) (hk : s.encKind = .fullFrame) :
    exec .tick s = .next (enterPhase .leadSpace s) :=
  exec_tick_of_segment_ends hlast hp (by decide) (by simpa [hp, hk] using advance_cases s)

theorem exec_tick_ends_leadMark_of_repeatCode (hp : s.encPhase = .leadMark) (hk : s.encKind = .repeatCode) :
    exec .tick s = .next (enterPhase .repeatSpace s) :=
  exec_tick_of_segment_ends hlast hp (by decide) (by simpa [hp, hk] using advance_cases s)

theorem exec_tick_ends_leadSpace (hp : s.encPhase = .leadSpace) :
    exec .tick s = .next (enterPhase .bitMark (setEncBit 0#5 s)) :=
  exec_tick_of_segment_ends hlast hp (by decide) (by simpa [hp] using advance_cases s)

theorem exec_tick_ends_repeatSpace (hp : s.encPhase = .repeatSpace) :
    exec .tick s = .next (enterPhase .stopMark s) :=
  exec_tick_of_segment_ends hlast hp (by decide) (by simpa [hp] using advance_cases s)

theorem exec_tick_ends_bitMark (hp : s.encPhase = .bitMark) : exec .tick s = .next (enterPhase .bitSpace s) :=
  exec_tick_of_segment_ends hlast hp (by decide) (by simpa [hp] using advance_cases s)

theorem exec_tick_ends_bitSpace_of_lastBit (hp : s.encPhase = .bitSpace) (hb : s.encBit = 31#5) :
    exec .tick s = .next (enterPhase .stopMark s) :=
  exec_tick_of_segment_ends hlast hp (by decide) (by simpa [hp, hb] using advance_cases s)

theorem exec_tick_ends_bitSpace_of_moreBits (hp : s.encPhase = .bitSpace) (hb : s.encBit ≠ 31#5) :
    exec .tick s = .next (enterPhase .bitMark (setEncBit (s.encBit + 1#5) s)) :=
  exec_tick_of_segment_ends hlast hp (by decide) (by simpa [hp, hb] using advance_cases s)

theorem exec_tick_ends_stopMark (hp : s.encPhase = .stopMark) :
    exec .tick s = .next (present .txDone (enterPhase .idle s)) :=
  exec_tick_of_segment_ends hlast hp (by decide) (by simpa [hp] using advance_cases s)

end

end Sys2Proof.Machine
end

section
/-! PROOF. The statements of 41_encoder.md on one event. -/

namespace Sys2Proof.Machine

/-- Settles O33: the word is a word of format A, the frame by the arithmetic of its three fields. -/
theorem frameRequestStartsTransmission : Obligations.FrameRequestStartsTransmission := by
  intro a c s
  have hword : formatA 3#4 a c = BitVec.ofNat 64 (3 * 2 ^ 60 + c.toNat * 2 ^ 16 + a.toNat) := formatA_eq_ofNat 3#4 a c
  refine ⟨hword ▸ decode_formatA_txFrame a c, fun hidle => ?_,
    fun hbusy => exec_of_eventEffect (.frameHeld a c hbusy)⟩
  rw [exec_of_eventEffect (.frameStarts a c hidle), assembleFrame_eq_ofNat]
  rfl

/-- Settles O35: the two ways TX_REPEAT can go. -/
theorem repeatRequestStartsTransmission : Obligations.RepeatRequestStartsTransmission :=
  fun _ => ⟨rfl, fun hidle => exec_of_eventEffect (.repeatStarts hidle),
    fun hbusy => exec_of_eventEffect (.repeatHeld hbusy)⟩

/-- Settles O36, row by row; only BIT_SPACE's duration depends on the frame. -/
theorem tickFollowsTheTable : Obligations.TickFollowsTheTable := by
  intro s
  refine ⟨rfl, fun hidle => exec_of_eventEffect (.tickRests (.inl hidle)),
    fun hidle hunused hmore => exec_of_eventEffect (.tickCounts hidle hunused hmore), fun hlast =>
    ⟨exec_tick_ends_leadMark_of_fullFrame hlast, exec_tick_ends_leadMark_of_repeatCode hlast,
      exec_tick_ends_leadSpace hlast, exec_tick_ends_repeatSpace hlast, fun hp => ?_,
      exec_tick_ends_bitSpace_of_lastBit hlast, exec_tick_ends_bitSpace_of_moreBits hlast,
      exec_tick_ends_stopMark hlast⟩⟩
  rw [exec_tick_ends_bitMark hlast hp, ← ofNat_bitSpaceMicros]
  rfl

end Sys2Proof.Machine
end

section
/-! PROOF. What a falling edge does, in terms of the duration it measures (43_decoder.md R91 to R98): the duration as
arithmetic modulo 2^32, the decoder's action on each symbol, one lemma for each row, and the bit appended at a count a
run can reach. -/

namespace Sys2Proof.Machine

/-- The measured duration is the difference of the timestamps modulo 2^32 (43_decoder.md R92). -/
theorem toNat_edgeDuration (now last : Timestamp) :
    (edgeDuration now last).toNat = (now.toNat + 2 ^ 32 - last.toNat) % 2 ^ 32 := by
  have hlast := last.isLt
  rw [edgeDuration, BitVec.toNat_sub]
  congr 1
  omega

/-! ### The action on a symbol -/

/-- The symbol that stands for a data bit: ONE for 1, ZERO for 0 (43_decoder.md R94, R95). -/
def bitSymbol (b : Bool) : Symbol := if b then .one else .zero

theorem classify_eq_bitSymbol_iff (b : Bool) (d : Timestamp) :
    classify d = bitSymbol b ↔
      (b = false ∧ 400 < d.toNat ∧ d.toNat < 800) ∨ (b = true ∧ 1500 < d.toNat ∧ d.toNat < 1900) := by
  cases b with
  | false => simp [bitSymbol, classify_eq_zero_iff]
  | true => simp [bitSymbol, classify_eq_one_iff]

section
variable {s : State}

theorem actOnSymbol_leading_of_awaitingStart (hs : s.decState = .awaitingStart) :
    actOnSymbol .leading s = startFrame s := by
  simp [actOnSymbol, hs]

theorem actOnSymbol_of_awaitingStart {sym : Symbol} (hs : s.decState = .awaitingStart) (hsym : sym ≠ .leading) :
    actOnSymbol sym s = s := by
  cases sym with
  | leading => exact absurd rfl hsym
  | zero | one | repeated | invalid => simp [actOnSymbol, hs]

theorem actOnSymbol_bitSymbol_of_receivingBits (hs : s.decState = .receivingBits) (b : Bool) :
    actOnSymbol (bitSymbol b) s = appendBit b s := by
  cases b <;> simp [actOnSymbol, bitSymbol, hs]

theorem actOnSymbol_of_receivingBits {sym : Symbol} (hs : s.decState = .receivingBits) (hzero : sym ≠ .zero)
    (hone : sym ≠ .one) : actOnSymbol sym s = abortFrame s := by
  cases sym with
  | zero => exact absurd rfl hzero
  | one => exact absurd rfl hone
  | repeated | invalid | leading => simp [actOnSymbol, hs]

/-! ### The appended bit -/

/-- At a count a run can reach, the appended bit is bit number `bitsAccumulated`, and no other bit changes
(43_decoder.md R94, R95). -/
theorem getLsbD_appendedFrame (hcount : s.bitsAccumulated.toNat < 32) (b : Bool) {j : Nat} (hj : j < 32) :
    (appendedFrame b s).getLsbD j
      = if j = s.bitsAccumulated.toNat then b else s.partialFrame.getLsbD j := by
  have hindex : (s.bitsAccumulated.extractLsb' 0 5).toNat = s.bitsAccumulated.toNat := by
    simpa using hcount
  rw [appendedFrame, readCount_of_reachable hcount, getLsbD_setFrameBit _ _ _ _ hj, hindex]

/-- Below 31 bits the count goes up by one (43_decoder.md R94, R95). -/
theorem appendBit_of_lt_31 (hcount : s.bitsAccumulated.toNat < 31) (b : Bool) :
    appendBit b s =
      { s with partialFrame := appendedFrame b s, bitsAccumulated := s.bitsAccumulated + 1#6 } := by
  have hreach : s.bitsAccumulated.toNat < 32 := by omega
  rcases appendBit_cases b s with ⟨hfull, -⟩ | ⟨-, happend⟩
  · rw [readCount_of_reachable hreach] at hfull
    bv_omega
  · rw [happend, spendDraw_of_reachable hreach, readCount_of_reachable hreach]

/-- The 32nd bit publishes the frame it completes (43_decoder.md R98). -/
theorem appendBit_of_eq_31 (hcount : s.bitsAccumulated.toNat = 31) (b : Bool) :
    appendBit b s = publishFrame (appendedFrame b s) { s with partialFrame := appendedFrame b s } := by
  have hreach : s.bitsAccumulated.toNat < 32 := by omega
  rcases appendBit_cases b s with ⟨-, hpublish⟩ | ⟨hmore, -⟩
  · rw [hpublish, spendDraw_of_reachable hreach]
  · rw [readCount_of_reachable hreach] at hmore
    bv_omega

end

end Sys2Proof.Machine
end

section
/-! PROOF. The words of format T as numbers, and the decoding of EDGE_RISE's word (30_encoding.md R50, R54). -/

namespace Sys2Proof

/-- A word of format T written as a number: `op << 60 | ts` (30_encoding.md R58). -/
theorem formatT_eq_ofNat (op : BitVec 4) (now : Timestamp) :
    formatT op now = BitVec.ofNat 64 (op.toNat * 2 ^ 60 + now.toNat) := by
  rw [← toNat_formatT, BitVec.ofNat_toNat, BitVec.setWidth_eq]

/-- A word of format T with EDGE_RISE's `op` decodes to EDGE_RISE of its timestamp (30_encoding.md R50, R54). -/
theorem decode_formatT_edgeRise (now : Timestamp) : decode (formatT 2#4 now) = .ok (.edgeRise now) := by
  simp [decode, Laws.OpField.opField_formatT, reservedT_formatT, nowField_formatT, unlessReserved]

end Sys2Proof
end

section
/-! PROOF. The statements of 43_decoder.md on one edge. -/

namespace Sys2Proof.Machine

/-- Settles O19: the word is a word of format T, the effect is EDGE_RISE's only one. -/
theorem riseOnlyRecordsItsTimestamp : Obligations.RiseOnlyRecordsItsTimestamp := by
  intro now s
  have hword : formatT 2#4 now = BitVec.ofNat 64 (2 * 2 ^ 60 + now.toNat) := formatT_eq_ofNat 2#4 now
  exact ⟨hword ▸ decode_formatT_edgeRise now, exec_of_eventEffect (.rise now)⟩

/-- Settles O20: the LEADING row and the rows of the other symbols in AWAITING_START. -/
theorem fallInAwaitingStart : Obligations.FallInAwaitingStart := by
  intro now s d hs hd
  rw [← toNat_edgeDuration] at hd
  subst hd
  rw [← classify_eq_leading_iff, exec_of_eventEffect (.fall now)]
  refine ⟨fun hleading => ?_, fun hother => ?_⟩
  · rw [hleading, actOnSymbol_leading_of_awaitingStart hs]
    rfl
  · rw [actOnSymbol_of_awaitingStart hs hother]
    rfl

/-- Settles O21: the frame is `appendedFrame`, and the count before the bit decides between the two outcomes of
`appendBit`. -/
theorem fallAppendsABitOrCompletes : Obligations.FallAppendsABitOrCompletes := by
  intro now s d b hs hd hbit hcount
  rw [← toNat_edgeDuration] at hd
  subst hd
  rw [← classify_eq_bitSymbol_iff] at hbit
  rw [exec_of_eventEffect (.fall now), hbit, actOnSymbol_bitSymbol_of_receivingBits hs]
  refine ⟨appendedFrame b s, fun j => getLsbD_appendedFrame hcount b, fun hmore => ?_, fun hlast => ?_⟩
  · rw [appendBit_of_lt_31 hmore]
    rfl
  · rw [appendBit_of_eq_31 hlast]
    rfl

/-- Settles O22: outside both windows the symbol is neither ZERO nor ONE. -/
theorem fallAbortsOnAnyOtherDuration : Obligations.FallAbortsOnAnyOtherDuration := by
  intro now s d hs hd hzero hone
  rw [← toNat_edgeDuration] at hd
  subst hd
  rw [← classify_eq_zero_iff] at hzero
  rw [← classify_eq_one_iff] at hone
  rw [exec_of_eventEffect (.fall now), actOnSymbol_of_receivingBits hs hzero hone]
  rfl

end Sys2Proof.Machine
end

section
/-! PROOF. A frame's fields and its checksum relation as arithmetic on the frame's number (44_frame_port.md R106, R107),
the valid frames as the frames TX_FRAME sends, and the Consumer's action, one lemma for each outcome (R111). -/

namespace Sys2Proof.Machine

/-! ### The fields of a frame -/

theorem toNat_frameAddress (F : Frame) : (frameAddress F).toNat = F.toNat % 2 ^ 16 := by
  simp [frameAddress]

theorem toNat_frameCommand (F : Frame) : (frameCommand F).toNat = F.toNat / 2 ^ 16 % 2 ^ 8 := by
  simp [frameCommand, Nat.shiftRight_eq_div_pow]

theorem toNat_frameInverted (F : Frame) : (frameInverted F).toNat = F.toNat / 2 ^ 24 % 2 ^ 8 := by
  simp [frameInverted, Nat.shiftRight_eq_div_pow]

theorem toNat_frameExpected (F : Frame) : (frameExpected F).toNat = 255 - F.toNat / 2 ^ 16 % 2 ^ 8 := by
  rw [frameExpected, BitVec.toNat_not, toNat_frameCommand]

/-- A frame's number is put together from its three fields (44_frame_port.md R106). -/
theorem toNat_frame_eq_fields (F : Frame) :
    F.toNat = F.toNat % 2 ^ 16 + F.toNat / 2 ^ 16 % 2 ^ 8 * 2 ^ 16 + F.toNat / 2 ^ 24 % 2 ^ 8 * 2 ^ 24 := by
  have hF := F.isLt
  omega

/-! ### The checksum relation -/

theorem checksumOk_iff (F : Frame) : checksumOk F = true ↔ frameInverted F = frameExpected F := beq_iff_eq

theorem checksumOk_iff_toNat (F : Frame) :
    checksumOk F = true ↔ F.toNat / 2 ^ 24 % 2 ^ 8 = 255 - F.toNat / 2 ^ 16 % 2 ^ 8 := by
  rw [checksumOk_iff, ← BitVec.toNat_inj, toNat_frameInverted, toNat_frameExpected]

/-- The relation reads the two command bytes only: nothing below bit 16 (44_frame_port.md R107). -/
theorem checksumOk_congr {F G : Frame} (h : F.toNat / 2 ^ 16 = G.toNat / 2 ^ 16) : checksumOk F = checksumOk G := by
  have hinv : F.toNat / 2 ^ 24 = G.toNat / 2 ^ 24 := by omega
  rw [Bool.eq_iff_iff, checksumOk_iff_toNat, checksumOk_iff_toNat, h, hinv]

/-- The frame TX_FRAME sends is the valid frame with its address and command (41_encoder.md R66, 00_scope.md R11). -/
theorem eq_assembleFrame_iff (F : Frame) (address : Address) (command : Command) :
    F = assembleFrame address command ↔
      checksumOk F = true ∧ frameAddress F = address ∧ frameCommand F = command := by
  have ha := address.isLt
  have hc := command.isLt
  rw [checksumOk_iff_toNat, ← BitVec.toNat_inj, ← BitVec.toNat_inj, ← BitVec.toNat_inj, toNat_assembleFrame,
    toNat_frameAddress, toNat_frameCommand]
  have hfields := toNat_frame_eq_fields F
  constructor
  · intro hsent
    omega
  · rintro ⟨hsum, haddress, hcommand⟩
    rw [hfields, hsum, haddress, hcommand]

/-! ### The Consumer's action -/

/-- What the Consumer can do after a DRAIN (44_frame_port.md R111). -/
theorem consumerAction_cases (ready : Bool) (F : Frame) :
    (ready = false ∧ consumerAction ready F = .noEffect)
    ∨ (ready = true ∧ checksumOk F = true ∧ consumerAction ready F = .validHit (frameAddress F) (frameCommand F))
    ∨ (ready = true ∧ checksumOk F = false ∧
        consumerAction ready F = .checksumFailure (frameCommand F) (frameInverted F) (frameExpected F)) := by
  cases ready <;> cases hsum : checksumOk F <;> simp [consumerAction, hsum]

theorem consumerAction_eq_noEffect_iff (ready : Bool) (F : Frame) :
    consumerAction ready F = .noEffect ↔ ready = false := by
  rcases consumerAction_cases ready F with ⟨rfl, h⟩ | ⟨rfl, h⟩ | ⟨rfl, h⟩ <;> simp [h]

theorem consumerAction_eq_validHit_iff (ready : Bool) (F : Frame) (address : Address) (command : Command) :
    consumerAction ready F = .validHit address command ↔
      ready = true ∧ checksumOk F = true ∧ frameAddress F = address ∧ frameCommand F = command := by
  rcases consumerAction_cases ready F with ⟨rfl, h⟩ | ⟨rfl, h⟩ | ⟨rfl, h⟩ <;> simp [h]

theorem consumerAction_eq_checksumFailure_iff (ready : Bool) (F : Frame) (command received expected : Command) :
    consumerAction ready F = .checksumFailure command received expected ↔
      ready = true ∧ checksumOk F = false
        ∧ frameCommand F = command ∧ frameInverted F = received ∧ frameExpected F = expected := by
  rcases consumerAction_cases ready F with ⟨rfl, h⟩ | ⟨rfl, h⟩ | ⟨rfl, h⟩ <;> simp [h]

end Sys2Proof.Machine
end

section
/-! PROOF. The decoder one bit short of any given word: a state that meets the invariant, and the falling edge that
completes it (43_decoder.md R94, R95, R98). -/

namespace Sys2Proof.Machine

/-- The nominal space that encodes a bit is classified as that bit (41_encoder.md R64, 42_classifier.md R80). -/
theorem classify_bitSpaceMicros (b : Bool) : classify (BitVec.ofNat 32 (bitSpaceMicros b)) = bitSymbol b := by
  cases b <;> decide

/-- Appending at count 31 keeps the lower bits and sets bit 31 (43_decoder.md R94, R95). -/
theorem appendedFrame_of_eq_31 {s : State} {F : Frame} (hcount : s.bitsAccumulated.toNat = 31)
    (hlow : ∀ j < 31, s.partialFrame.getLsbD j = F.getLsbD j) : appendedFrame (F.getLsbD 31) s = F := by
  apply BitVec.eq_of_getLsbD_eq
  intro j hj
  rw [getLsbD_appendedFrame (by omega) _ hj, hcount]
  split
  · next hlast => rw [hlast]
  · next hother => exact hlow j (by omega)

/-- The decoder has received bits 0 to 30 of `F`, the last edge at time 0; the mailbox holds another word. -/
def lastBitPending (F : Frame) : State :=
  { State.reset with
    decState := .receivingBits
    bitsAccumulated := 31#6
    partialFrame := (F.setWidth 31).setWidth 32
    completedFrame := ~~~F }

/-- Its encoder's part is the reset state's. -/
theorem stateInv_lastBitPending (F : Frame) : StateInv (lastBitPending F) := by
  have hencoder : SequencerInv State.reset ∧ TransmissionInv State.reset := by decide
  have hlow : ((F.setWidth 31).setWidth 32).toNat < 2 ^ 31 := by
    rw [BitVec.toNat_setWidth_of_le (by decide)]
    exact (F.setWidth 31).isLt
  exact ⟨⟨by simp [lastBitPending], by simp [lastBitPending], fun _ => hlow⟩, hencoder⟩

/-- The next nominal space completes the word, whatever it is: the checksum is not looked at (44_frame_port.md R107). -/
theorem exec_edgeFall_lastBitPending (F : Frame) :
    ∃ t, exec (.edgeFall (BitVec.ofNat 32 (bitSpaceMicros (F.getLsbD 31)))) (lastBitPending F) = .next t
      ∧ t.completedFrame = F ∧ t.frameReady = true := by
  have hbits : appendedFrame (F.getLsbD 31) (lastBitPending F) = F := by
    refine appendedFrame_of_eq_31 rfl fun j hj => ?_
    simp [lastBitPending, hj, Nat.lt_trans hj]
  refine ⟨_, exec_of_eventEffect (.fall _), ?_⟩
  have hduration : ∀ now, edgeDuration now (lastBitPending F).lastEdgeTimestamp = now := BitVec.sub_zero
  rw [hduration, classify_bitSpaceMicros, actOnSymbol_bitSymbol_of_receivingBits rfl, appendBit_of_eq_31 rfl, hbits]
  exact ⟨rfl, rfl⟩

end Sys2Proof.Machine
end

section
/-! PROOF. The statements of 44_frame_port.md on the frame, the Consumer and DRAIN. -/

namespace Sys2Proof.Machine

/-- Settles O44: the fields' numbers, the ports by definition, and the state one bit short of the given word. -/
theorem fieldsAndChecksumOfAFrame : Obligations.FieldsAndChecksumOfAFrame := by
  refine ⟨fun F => ⟨toNat_frameAddress F, toNat_frameCommand F, toNat_frameInverted F, toNat_frameExpected F,
    checksumOk_iff_toNat F⟩, fun F G => checksumOk_congr, fun s => ⟨rfl, rfl⟩, fun F => ?_⟩
  obtain ⟨t, hexec, hframe, hready⟩ := exec_edgeFall_lastBitPending F
  have hother : ~~~F ≠ F := by bv_omega
  exact ⟨_, lastBitPending F, t, stateInv_lastBitPending F, hother, hexec, hframe, hready⟩

/-- Settles O46: a valid frame is the one TX_FRAME sends, and an invalid one differs from `~~~command` in its inverted
byte. -/
theorem validHitExactlyForSentFrames : Obligations.ValidHitExactlyForSentFrames := by
  intro ready F
  refine ⟨fun a c => ?_, consumerAction_eq_noEffect_iff ready F, fun c r e => ?_⟩
  · rw [consumerAction_eq_validHit_iff, eq_assembleFrame_iff]
  · have hinvalid : checksumOk F = false ↔ frameInverted F ≠ frameExpected F := by
      rw [← Bool.not_eq_true, checksumOk_iff]
    rw [consumerAction_eq_checksumFailure_iff, hinvalid]
    constructor
    · rintro ⟨hready, hne, rfl, rfl, rfl⟩
      exact ⟨hready, rfl, rfl, rfl, hne⟩
    · rintro ⟨hready, rfl, rfl, rfl, hne⟩
      exact ⟨hready, hne, rfl, rfl, rfl⟩

/-- Settles O42: DRAIN has one effect, whatever the state. -/
theorem drainReadsAndClears : Obligations.DrainReadsAndClears :=
  fun _ => ⟨rfl, rfl, exec_of_eventEffect .drain⟩

end Sys2Proof.Machine
end

section
/-! PROOF. The statement of 70_reset_and_hazards.md on RESET. -/

namespace Sys2Proof.Machine

/-- Settles O47: the fixed word is RESET's, and RESET has one effect, `resetElements`, whatever the state; that writes
the twelve elements and no other field. -/
theorem resetRestoresEveryElement : Obligations.ResetRestoresEveryElement :=
  fun _ => ⟨rfl, exec_of_eventEffect .reset⟩

end Sys2Proof.Machine
end

section
/-! PROOF. The decoder and the encoder are inverse to each other (30_encoding.md R48 to R57): each format's word put
together again from its fields, and the decoder's answer said once, one constructor for each way it can go. -/

namespace Sys2Proof

/-! ### A word is its format's word of its own fields -/

theorem formatT_of_fields {w : EventWord} {op : BitVec 4} (hop : opField w = op) (hzero : reservedT w = 0#28) :
    formatT op (nowField w) = w := by
  rw [← BitVec.toNat_inj, toNat_reservedT, BitVec.toNat_ofNat] at hzero
  rw [← BitVec.toNat_inj, toNat_formatT, ← hop, toNat_opField, toNat_nowField]
  omega

theorem formatA_of_fields {w : EventWord} {op : BitVec 4} (hop : opField w = op) (hzero : reservedA w = 0#36) :
    formatA op (addressField w) (commandField w) = w := by
  rw [← BitVec.toNat_inj, toNat_reservedA, BitVec.toNat_ofNat] at hzero
  rw [← BitVec.toNat_inj, toNat_formatA, ← hop, toNat_opField, toNat_addressField, toNat_commandField]
  omega

theorem formatN_of_fields {w : EventWord} {op : BitVec 4} (hop : opField w = op) (hzero : reservedN w = 0#60) :
    formatN op = w := by
  rw [← BitVec.toNat_inj, toNat_reservedN, BitVec.toNat_ofNat] at hzero
  rw [← BitVec.toNat_inj, toNat_formatN, ← hop, toNat_opField]
  omega

/-! ### The decoder's answer -/

/-- The decoder's answer as a relation (30_encoding.md R54, R56): the `op`, and whether the format's reserved bits are
zero, decide which way it goes. -/
inductive DecodeAnswer (w : EventWord) : Except DecodeError Instr → Prop
  | fall (hop : opField w = 1#4) (hzero : reservedT w = 0#28) : DecodeAnswer w (.ok (.edgeFall (nowField w)))
  | rise (hop : opField w = 2#4) (hzero : reservedT w = 0#28) : DecodeAnswer w (.ok (.edgeRise (nowField w)))
  | frame (hop : opField w = 3#4) (hzero : reservedA w = 0#36) :
      DecodeAnswer w (.ok (.txFrame (addressField w) (commandField w)))
  | repeated (hop : opField w = 4#4) (hzero : reservedN w = 0#60) : DecodeAnswer w (.ok .txRepeat)
  | tick (hop : opField w = 5#4) (hzero : reservedN w = 0#60) : DecodeAnswer w (.ok .tick)
  | drain (hop : opField w = 6#4) (hzero : reservedN w = 0#60) : DecodeAnswer w (.ok .drain)
  | reset (hop : opField w = 7#4) (hzero : reservedN w = 0#60) : DecodeAnswer w (.ok .reset)
  | bitsOfT (hop : opField w = 1#4 ∨ opField w = 2#4) (hbits : reservedT w ≠ 0#28) :
      DecodeAnswer w (.error .reservedBits)
  | bitsOfA (hop : opField w = 3#4) (hbits : reservedA w ≠ 0#36) : DecodeAnswer w (.error .reservedBits)
  | bitsOfN (hop : opField w = 4#4 ∨ opField w = 5#4 ∨ opField w = 6#4 ∨ opField w = 7#4)
      (hbits : reservedN w ≠ 0#60) : DecodeAnswer w (.error .reservedBits)
  | op (hop : opField w ≠ 1#4 ∧ opField w ≠ 2#4 ∧ opField w ≠ 3#4 ∧ opField w ≠ 4#4 ∧ opField w ≠ 5#4
      ∧ opField w ≠ 6#4 ∧ opField w ≠ 7#4) : DecodeAnswer w (.error .reservedOp)

/-- The reserved bits decide between an instruction and Invalid(reserved-bits) (30_encoding.md R54). -/
theorem decodeAnswer_unlessReserved {w : EventWord} {n : Nat} {reserved : BitVec n} {i : Instr}
    (hok : reserved = 0#n → DecodeAnswer w (.ok i))
    (hbits : reserved ≠ 0#n → DecodeAnswer w (.error .reservedBits)) :
    DecodeAnswer w (unlessReserved (reserved == 0#n) i) := by
  by_cases h : reserved = 0#n
  · simpa [unlessReserved, h] using hok h
  · simpa [unlessReserved, h] using hbits h

/-- Every word is answered in one of the ways of `DecodeAnswer`. -/
theorem decodeAnswer_decode (w : EventWord) : DecodeAnswer w (decode w) := by
  unfold decode
  split_ifs with h1 h2 h3 h4 h5 h6 h7
  · exact decodeAnswer_unlessReserved (.fall h1) (.bitsOfT (.inl h1))
  · exact decodeAnswer_unlessReserved (.rise h2) (.bitsOfT (.inr h2))
  · exact decodeAnswer_unlessReserved (.frame h3) (.bitsOfA h3)
  · exact decodeAnswer_unlessReserved (.repeated h4) (.bitsOfN (.inl h4))
  · exact decodeAnswer_unlessReserved (.tick h5) (.bitsOfN (.inr (.inl h5)))
  · exact decodeAnswer_unlessReserved (.drain h6) (.bitsOfN (.inr (.inr (.inl h6))))
  · exact decodeAnswer_unlessReserved (.reset h7) (.bitsOfN (.inr (.inr (.inr h7))))
  · exact .op ⟨h1, h2, h3, h4, h5, h6, h7⟩

/-! ### Decoding and encoding -/

/-- A word of format T with EDGE_FALL's `op` decodes to EDGE_FALL of its timestamp (30_encoding.md R50, R54). -/
theorem decode_formatT_edgeFall (now : Timestamp) : decode (formatT 1#4 now) = .ok (.edgeFall now) := by
  simp [decode, Laws.OpField.opField_formatT, reservedT_formatT, nowField_formatT, unlessReserved]

theorem decode_encode (i : Instr) : decode (encode i) = .ok i := by
  cases i with
  | edgeFall now => exact decode_formatT_edgeFall now
  | edgeRise now => exact decode_formatT_edgeRise now
  | txFrame address command => exact decode_formatA_txFrame address command
  | txRepeat | tick | drain | reset => rfl

theorem encode_of_decode {w : EventWord} {i : Instr} (h : decode w = .ok i) : encode i = w := by
  have hanswer := decodeAnswer_decode w
  rw [h] at hanswer
  cases hanswer with
  | fall hop hzero | rise hop hzero => exact formatT_of_fields hop hzero
  | frame hop hzero => exact formatA_of_fields hop hzero
  | repeated hop hzero | tick hop hzero | drain hop hzero | reset hop hzero => exact formatN_of_fields hop hzero

theorem decode_eq_ok_iff (w : EventWord) (i : Instr) : decode w = .ok i ↔ w = encode i :=
  ⟨fun h => (encode_of_decode h).symm, fun h => h ▸ decode_encode i⟩

end Sys2Proof
end

section
/-! PROOF. The pattern table (30_encoding.md R55): what a word matches in plain arithmetic, and that the words a row
matches are the words of its format with its `op`. -/

namespace Sys2Proof

/-- Under a mask of the high bits a word is compared without its low `k` bits. -/
theorem and_highMask_eq_iff {n : Nat} (w value : BitVec n) (k : Nat) :
    w &&& (BitVec.allOnes n <<< k) = value ↔ w.toNat / 2 ^ k * 2 ^ k = value.toNat := by
  have hmask : w &&& (BitVec.allOnes n <<< k) = w >>> k <<< k := by
    apply BitVec.eq_of_getLsbD_eq
    intro j hj
    by_cases hjk : j < k
    · simp [hjk]
    · simp [hj, hjk, Nat.add_sub_cancel' (Nat.le_of_not_lt hjk)]
  have hle := Nat.div_mul_le_self w.toNat (2 ^ k)
  rw [hmask, ← BitVec.toNat_inj, BitVec.toNat_shiftLeft, BitVec.toNat_ushiftRight, Nat.shiftLeft_eq,
    Nat.shiftRight_eq_div_pow, Nat.mod_eq_of_lt (by omega)]

/-- The row of a format T event matches that event's words (30_encoding.md R50, R55). -/
theorem matches_formatT_iff (w : EventWord) (op : BitVec 4) :
    w &&& 0xFFFFFFFF00000000 = formatN op ↔ ∃ now, w = formatT op now := by
  have hop := op.isLt
  rw [show (0xFFFFFFFF00000000 : EventWord) = BitVec.allOnes 64 <<< 32 from rfl, and_highMask_eq_iff, toNat_formatN]
  constructor
  · intro h
    refine ⟨nowField w, BitVec.eq_of_toNat_eq ?_⟩
    rw [toNat_formatT, toNat_nowField]
    omega
  · rintro ⟨now, rfl⟩
    have hnow := now.isLt
    rw [toNat_formatT]
    omega

/-- The row of TX_FRAME matches the words of format A with its `op` (30_encoding.md R51, R55). -/
theorem matches_formatA_iff (w : EventWord) (op : BitVec 4) :
    w &&& 0xFFFFFFFFFF000000 = formatN op ↔ ∃ address command, w = formatA op address command := by
  have hop := op.isLt
  rw [show (0xFFFFFFFFFF000000 : EventWord) = BitVec.allOnes 64 <<< 24 from rfl, and_highMask_eq_iff, toNat_formatN]
  constructor
  · intro h
    refine ⟨addressField w, commandField w, BitVec.eq_of_toNat_eq ?_⟩
    rw [toNat_formatA, toNat_addressField, toNat_commandField]
    omega
  · rintro ⟨address, command, rfl⟩
    have haddress := address.isLt
    have hcommand := command.isLt
    rw [toNat_formatA]
    omega

/-- The row of a format N event matches its one word (30_encoding.md R52, R55). -/
theorem matches_formatN_iff (w : EventWord) (op : BitVec 4) :
    w &&& 0xFFFFFFFFFFFFFFFF = formatN op ↔ w = formatN op := by
  rw [show (0xFFFFFFFFFFFFFFFF : EventWord) = BitVec.allOnes 64 from rfl, BitVec.and_allOnes]

/-- Some event has a property exactly when an event of one of the seven kinds has it (30_encoding.md R49). -/
theorem exists_instr_iff (P : Instr → Prop) :
    (∃ i, P i) ↔ (∃ now, P (.edgeFall now)) ∨ (∃ now, P (.edgeRise now))
      ∨ (∃ address command, P (.txFrame address command)) ∨ P .txRepeat ∨ P .tick ∨ P .drain ∨ P .reset := by
  constructor
  · rintro ⟨i, h⟩
    cases i with
    | edgeFall now => exact .inl ⟨now, h⟩
    | edgeRise now => exact .inr (.inl ⟨now, h⟩)
    | txFrame address command => exact .inr (.inr (.inl ⟨address, command, h⟩))
    | txRepeat | tick | drain | reset => simp [h]
  · rintro (⟨_, h⟩ | ⟨_, h⟩ | ⟨_, _, h⟩ | h | h | h | h) <;> exact ⟨_, h⟩

/-- A word matches a row exactly when it is the word of one of the row's events (30_encoding.md R55). -/
theorem matches_row_iff (w : EventWord) {r : PatternRow} (hr : r ∈ patternTable) :
    w &&& r.mask = r.value ↔ ∃ i, w = encode i ∧ i.mnemonic = r.mnemonic := by
  simp only [patternTable, List.mem_cons, List.not_mem_nil, or_false] at hr
  rcases hr with rfl | rfl | rfl | rfl | rfl | rfl | rfl
  · exact (matches_formatT_iff w 1#4).trans (by simp [exists_instr_iff, Instr.mnemonic, encode])
  · exact (matches_formatT_iff w 2#4).trans (by simp [exists_instr_iff, Instr.mnemonic, encode])
  · exact (matches_formatA_iff w 3#4).trans (by simp [exists_instr_iff, Instr.mnemonic, encode])
  · exact (matches_formatN_iff w 4#4).trans (by simp [exists_instr_iff, Instr.mnemonic, encode])
  · exact (matches_formatN_iff w 5#4).trans (by simp [exists_instr_iff, Instr.mnemonic, encode])
  · exact (matches_formatN_iff w 6#4).trans (by simp [exists_instr_iff, Instr.mnemonic, encode])
  · exact (matches_formatN_iff w 7#4).trans (by simp [exists_instr_iff, Instr.mnemonic, encode])

/-- The mnemonic names the row. -/
theorem patternTable_mnemonic_inj :
    ∀ r ∈ patternTable, ∀ r' ∈ patternTable, r.mnemonic = r'.mnemonic → r = r' := by
  decide

end Sys2Proof
end

section
/-! PROOF. The statements of 30_encoding.md on words and lines. -/

namespace Sys2Proof.Machine

/-- Settles O1, event by event. -/
theorem decodeOfEncodeIsTheEvent : Obligations.DecodeOfEncodeIsTheEvent := decode_encode

/-- Settles O2: a word with zero reserved bits is its format's word of its own fields. -/
theorem encodeOfDecodedIsTheWord : Obligations.EncodeOfDecodedIsTheWord := fun _ _ => encode_of_decode

/-- Settles O3: a row matches the words of its events, and a word that matches two rows is the word of one event, whose
mnemonic both rows carry. -/
theorem patternTableSelectsTheMnemonic : Obligations.PatternTableSelectsTheMnemonic := by
  refine ⟨fun w r hr => by simp only [matches_row_iff w hr, decode_eq_ok_iff], fun w r hr r' hr' h h' => ?_⟩
  obtain ⟨i, rfl, hi⟩ := (matches_row_iff w hr).1 h
  obtain ⟨i', hw, hi'⟩ := (matches_row_iff _ hr').1 h'
  have hsame : i = i' := Except.ok.inj ((decode_encode i).symm.trans (hw ▸ decode_encode i'))
  exact patternTable_mnemonic_inj r hr r' hr' (by rw [← hi, ← hi', hsame])

/-- Settles O4: each way the decoder can go, with its `op` and its reserved bits as numbers. -/
theorem invalidWordsAreRefusedByName : Obligations.InvalidWordsAreRefusedByName := by
  intro w
  have hanswer := decodeAnswer_decode w
  rw [← toNat_opField, ← toNat_reservedT, ← toNat_reservedA, ← toNat_reservedN]
  generalize decode w = answer at hanswer
  cases hanswer with
  | fall hop hzero | rise hop hzero | frame hop hzero | repeated hop hzero | tick hop hzero | drain hop hzero
    | reset hop hzero => simp [hop, hzero]
  | bitsOfT hop hbits =>
    rw [ne_eq, ← BitVec.toNat_inj] at hbits
    rcases hop with hop | hop <;> simpa [hop] using hbits
  | bitsOfA hop hbits =>
    rw [ne_eq, ← BitVec.toNat_inj] at hbits
    simpa [hop] using hbits
  | bitsOfN hop hbits =>
    rw [ne_eq, ← BitVec.toNat_inj] at hbits
    rcases hop with hop | hop | hop | hop <;> simpa [hop] using hbits
  | op hop =>
    simp only [ne_eq, ← BitVec.toNat_inj, BitVec.toNat_ofNat] at hop
    simp only [reduceCtorEq, Except.error.injEq, true_iff, false_iff]
    omega

/-- Settles O5: each word is, by computation, its event's, and an event's word decodes to it. -/
theorem sampleWordsDecode : Obligations.SampleWordsDecode :=
  ⟨decode_encode (.edgeFall 4500), decode_encode (.edgeRise 0xFFFFFFFF), decode_encode (.txFrame 0x1234 0x99),
    decode_encode (.txFrame 0x00FF 0x00), decode_encode .txRepeat, decode_encode .tick, decode_encode .drain,
    decode_encode .reset⟩

/-- Settles O6: an operand that fits keeps its number at its field's width. -/
theorem assemblerGivesTheTablesWords : Obligations.AssemblerGivesTheTablesWords := by
  have hfit : ∀ {ts n : Nat}, ts < 2 ^ n → (BitVec.ofNat n ts).toNat = ts :=
    fun h => (BitVec.toNat_ofNat _ _).trans (Nat.mod_eq_of_lt h)
  refine ⟨fun ts => ?_, fun ts => ?_, fun a c => ?_, rfl, rfl, rfl, rfl, fun n => ?_⟩
  · simp only [assembleLine, Line.wellFormed, decide_eq_true_eq]
    split_ifs with h
    · simp [expandLine, encode, formatT_eq_ofNat, hfit h]
    · rfl
  · simp only [assembleLine, Line.wellFormed, decide_eq_true_eq]
    split_ifs with h
    · simp [expandLine, encode, formatT_eq_ofNat, hfit h]
    · rfl
  · simp only [assembleLine, Line.wellFormed, Bool.and_eq_true, decide_eq_true_eq]
    split_ifs with h
    · simp [expandLine, encode, formatA_eq_ofNat, hfit h.1, hfit h.2]
    · rfl
  · simp [assembleLine, Line.wellFormed, expandLine, ticks, encode, formatN]

end Sys2Proof.Machine
end

section
/-! PROOF. What the decoder does with a symbol, as a relation: one constructor for each way it can go (43_decoder.md R91,
R93 to R98). -/

namespace Sys2Proof.Machine

/-- The decoder's action on a symbol, with the condition of each of its five outcomes. -/
inductive SymbolEffect (s : State) : Symbol → State → Prop
  | ignores {sym : Symbol} (hs : s.decState = .awaitingStart) (hsym : sym ≠ .leading) : SymbolEffect s sym s
  | starts (hs : s.decState = .awaitingStart) : SymbolEffect s .leading (startFrame s)
  | appends (b : Bool) (hs : s.decState = .receivingBits) (hmore : readCount s + 1#6 ≠ 32#6) :
      SymbolEffect s (bitSymbol b)
        { spendDraw s with partialFrame := appendedFrame b s, bitsAccumulated := readCount s + 1#6 }
  | completes (b : Bool) (hs : s.decState = .receivingBits) (hlast : readCount s + 1#6 = 32#6) :
      SymbolEffect s (bitSymbol b)
        (publishFrame (appendedFrame b s) { spendDraw s with partialFrame := appendedFrame b s })
  | aborts {sym : Symbol} (hs : s.decState = .receivingBits) (hzero : sym ≠ .zero) (hone : sym ≠ .one) :
      SymbolEffect s sym (abortFrame s)

/-- A symbol other than ZERO and ONE, or the symbol of a bit. -/
theorem symbol_cases (sym : Symbol) : (sym ≠ .zero ∧ sym ≠ .one) ∨ ∃ b, sym = bitSymbol b := by
  cases sym with
  | zero => exact .inr ⟨false, rfl⟩
  | one => exact .inr ⟨true, rfl⟩
  | invalid | repeated | leading => exact .inl (by decide)

/-- The action on a symbol goes one of the ways of `SymbolEffect`. -/
theorem symbolEffect_actOnSymbol (sym : Symbol) (s : State) : SymbolEffect s sym (actOnSymbol sym s) := by
  cases hs : s.decState with
  | awaitingStart =>
    by_cases hsym : sym = .leading
    · rw [hsym, actOnSymbol_leading_of_awaitingStart hs]
      exact .starts hs
    · rw [actOnSymbol_of_awaitingStart hs hsym]
      exact .ignores hs hsym
  | receivingBits =>
    rcases symbol_cases sym with ⟨hzero, hone⟩ | ⟨b, rfl⟩
    · rw [actOnSymbol_of_receivingBits hs hzero hone]
      exact .aborts hs hzero hone
    · rw [actOnSymbol_bitSymbol_of_receivingBits hs]
      rcases appendBit_cases b s with ⟨hlast, e⟩ | ⟨hmore, e⟩ <;> rw [e]
      · exact .completes b hs hlast
      · exact .appends b hs hmore

/-- What `SymbolEffect` allows is what the action does: its conditions exclude one another. -/
theorem actOnSymbol_of_symbolEffect {sym : Symbol} {s t : State} (h : SymbolEffect s sym t) :
    actOnSymbol sym s = t := by
  cases h with
  | ignores hs hsym => exact actOnSymbol_of_awaitingStart hs hsym
  | starts hs => exact actOnSymbol_leading_of_awaitingStart hs
  | appends b hs hmore =>
    rw [actOnSymbol_bitSymbol_of_receivingBits hs]
    exact if_neg hmore
  | completes b hs hlast =>
    rw [actOnSymbol_bitSymbol_of_receivingBits hs]
    exact if_pos hlast
  | aborts hs hzero hone => exact actOnSymbol_of_receivingBits hs hzero hone

/-- The decoder does not read the environment's inputs. -/
theorem actOnSymbol_with_inputs (sym : Symbol) (s : State) (q : Inputs) :
    actOnSymbol sym { s with inputs := q } = { actOnSymbol sym s with inputs := q } := by
  have heffect := symbolEffect_actOnSymbol sym s
  generalize actOnSymbol sym s = t at heffect
  apply actOnSymbol_of_symbolEffect
  cases heffect with
  | ignores hs hsym => exact .ignores hs hsym
  | starts hs => exact .starts hs
  | appends b hs hmore => exact .appends b hs hmore
  | completes b hs hlast => exact .completes b hs hlast
  | aborts hs hzero hone => exact .aborts hs hzero hone

end Sys2Proof.Machine
end

section
/-! PROOF. A step in terms of what is offered, one equation for each thing the next turn can bring, and what a step
leaves in the queues (30_encoding.md R62, 41_encoder.md R73, 60_exceptions.md R131). -/

namespace Sys2Proof.Machine

/-! ### What is offered -/

theorem offered_of_no_turn {s : State} (hturn : s.inputs.schedule = []) : offered s = .quiet := by
  simp [offered, hturn]

theorem schedule_of_offered_quiet {s : State} (h : offered s = .quiet) : s.inputs.schedule = [] := by
  unfold offered at h
  split at h
  · assumption
  · split at h <;> cases h

section
variable {s : State} {a : Agent} {turns : List Agent} (hturn : s.inputs.schedule = a :: turns)
include hturn

theorem offered_of_empty_queue (hqueue : queueOf a s.inputs = []) : offered s = .absent := by
  simp [offered, hturn, hqueue]

theorem offered_of_queue {w : EventWord} {ws : List EventWord} (hqueue : queueOf a s.inputs = w :: ws) :
    offered s = .word a w := by
  simp [offered_word_iff, hturn, hqueue]

theorem passTurn_of_turn : passTurn s = { s with inputs := { s.inputs with schedule := turns } } := by
  simp [passTurn, hturn]

theorem takeWord_of_queue {w : EventWord} {ws : List EventWord} (hqueue : queueOf a s.inputs = w :: ws) :
    takeWord a s = { s with inputs := setQueue a ws { s.inputs with schedule := turns } } := by
  simp [takeWord, hturn, hqueue]

end

/-! ### The step's equations -/

section
variable {s : State}

theorem step_of_quiet (hoffer : offered s = .quiet) : step s = .next s := by
  simp [step, hoffer]

theorem step_of_absent (hoffer : offered s = .absent) : step s = .next (passTurn s) := by
  simp [step, hoffer]

variable {a : Agent} {w : EventWord} (hoffer : offered s = .word a w)
include hoffer

theorem step_of_invalid {e : DecodeError} (hdecode : decode w = .error e) :
    step s = .next (refuseWord (takeWord a s)) := by
  simp [step, hoffer, hdecode]

theorem step_of_held {i : Instr} (hdecode : decode w = .ok i) (hheld : held i s = true) :
    step s = .next (passTurn s) := by
  have hstay : exec i (passTurn s) = .next (passTurn s) := exec_of_held ((held_passTurn i s).trans hheld)
  simp [step, hoffer, hdecode, hheld, hstay]

theorem step_of_accepted {i : Instr} (hdecode : decode w = .ok i) (hheld : held i s = false) :
    step s = exec i (takeWord a s) := by
  simp [step, hoffer, hdecode, hheld]

end

/-- `step` never stops (60_exceptions.md R115). -/
theorem step_answers (s : State) : ∃ t, step s = .next t := by
  cases hoffer : offered s with
  | quiet => exact ⟨_, step_of_quiet hoffer⟩
  | absent => exact ⟨_, step_of_absent hoffer⟩
  | word a w =>
    cases hdecode : decode w with
    | error e => exact ⟨_, step_of_invalid hoffer hdecode⟩
    | ok i =>
      cases hheld : held i s with
      | true => exact ⟨_, step_of_held hoffer hdecode hheld⟩
      | false => simpa only [step_of_accepted hoffer hdecode hheld] using exec_answers i (takeWord a s)

/-! ### The queues after a step -/

/-- What a step leaves of the inputs: as they were with no turn left, else one turn less, and one word less where one
was taken. -/
theorem step_inputs_cases {s t : State} (h : step s = .next t) :
    (s.inputs.schedule = [] ∧ t.inputs = s.inputs)
    ∨ t.inputs = (passTurn s).inputs
    ∨ ∃ a w, offered s = .word a w ∧ t.inputs = (takeWord a s).inputs := by
  cases stepEffect_of_step h with
  | quiet hoffer => exact .inl ⟨schedule_of_offered_quiet hoffer, rfl⟩
  | absent | held => exact .inr (.inl rfl)
  | refused hoffer => exact .inr (.inr ⟨_, _, hoffer, rfl⟩)
  | accepted hoffer _ _ hexec => exact .inr (.inr ⟨_, _, hoffer, exec_inputs hexec⟩)

theorem step_schedule {s t : State} (h : step s = .next t) : t.inputs.schedule = s.inputs.schedule.tail := by
  rcases step_inputs_cases h with ⟨hturn, hinputs⟩ | hinputs | ⟨a, w, -, hinputs⟩
  · simp [hinputs, hturn]
  · simp [hinputs]
  · simp [hinputs]

/-- A step takes at most the oldest word of a queue. -/
theorem step_queueOf {s t : State} (h : step s = .next t) (a : Agent) :
    queueOf a t.inputs = queueOf a s.inputs
      ∨ (queueOf a t.inputs = (queueOf a s.inputs).tail ∧ ∃ w, offered s = .word a w) := by
  rcases step_inputs_cases h with ⟨-, hinputs⟩ | hinputs | ⟨b, w, hoffer, hinputs⟩
  · exact .inl (by rw [hinputs])
  · exact .inl (by simp [hinputs])
  · by_cases hab : a = b
    · subst hab
      exact .inr ⟨by simp [hinputs], w, hoffer⟩
    · exact .inl (by simp [hinputs, queueOf_setQueue_other hab])

/-! ### Runs -/

theorem runEvents_cons {i : Instr} {s t : State} (h : exec i s = .next t) (events : List Instr) :
    runEvents (i :: events) s = runEvents events t := by
  simp only [runEvents, h]

theorem run_succ_of_step {s t : State} (h : step s = .next t) (n : Nat) :
    Host.Core.run Sys2Proof.core (n + 1) s = Host.Core.run Sys2Proof.core n t := by
  simp only [Host.Core.run, Sys2Proof.core, h]

/-- The mark is never cleared, however long the run (10_state.md R29). -/
theorem run_keeps_refused (n : Nat) {s t : State} (h : Host.Core.run Sys2Proof.core n s = .next t)
    (hmark : s.refused = true) : t.refused = true := by
  induction n generalizing s with
  | zero =>
    cases h
    exact hmark
  | succ n ih =>
    obtain ⟨u, hstep⟩ := step_answers s
    rw [run_succ_of_step hstep] at h
    exact ih h ((refusedMarkIsSticky s u hstep).2 (.inl hmark))

/-! ### An event does not read the inputs -/

theorem advance_with_inputs (s : State) (q : Inputs) :
    advance { s with inputs := q } = { advance s with inputs := q } := by
  rcases advance_cases s with h | h | h | h | h | h | h | h | h | h <;> simp [h, advance] <;> rfl

/-- An event does the same whatever the environment has still to offer. -/
theorem eventEffect_with_inputs {i : Instr} {s t : State} (h : EventEffect s i t) (q : Inputs) :
    EventEffect { s with inputs := q } i { t with inputs := q } := by
  cases h with
  | fall now =>
    have hfall := EventEffect.fall (s := { s with inputs := q }) now
    rw [actOnSymbol_with_inputs] at hfall
    exact hfall
  | rise now => exact .rise now
  | frameHeld address command hbusy => exact .frameHeld address command hbusy
  | frameStarts address command hidle => exact .frameStarts address command hidle
  | repeatHeld hbusy => exact .repeatHeld hbusy
  | repeatStarts hidle => exact .repeatStarts hidle
  | tickRests hrest => exact .tickRests hrest
  | tickCounts hidle hunused hmore => exact .tickCounts hidle hunused hmore
  | tickEnds hidle hunused hlast =>
    rw [← advance_with_inputs]
    exact .tickEnds hidle hunused hlast
  | drain => exact .drain
  | reset => exact .reset

theorem exec_with_inputs {i : Instr} {s t : State} (h : exec i s = .next t) (q : Inputs) :
    exec i { s with inputs := q } = .next { t with inputs := q } :=
  exec_of_eventEffect (eventEffect_with_inputs (eventEffect_of_exec h) q)

/-- Whether an event is held is read from the block alone. -/
theorem held_with_inputs (i : Instr) (s : State) (q : Inputs) : held i { s with inputs := q } = held i s := by
  cases i <;> rfl

/-- The word `offerFirst` puts first is the one a turn takes, and what is left is as before. -/
theorem takeWord_offerFirst (a : Agent) (w : EventWord) (s : State) (q : Inputs) :
    takeWord a { s with inputs := offerFirst a w q } = { s with inputs := q } := by
  cases a <;> rfl

/-- One step over the inputs that offer a list of events is the first event's transition, when it is not held. -/
theorem step_inputsOf_cons {i : Instr} {s t : State} (hheld : held i s = false) (h : exec i s = .next t)
    (events : List Instr) :
    step { s with inputs := inputsOf (i :: events) } = .next { t with inputs := inputsOf events } := by
  have hoffer := offered_offerFirst (agentOf i) (encode i) { s with inputs := inputsOf events }
  calc step { s with inputs := inputsOf (i :: events) }
      = exec i (takeWord (agentOf i) { s with inputs := inputsOf (i :: events) }) :=
        step_of_accepted hoffer (decode_encode i) ((held_with_inputs i s _).trans hheld)
    _ = exec i { s with inputs := inputsOf events } :=
        congrArg (exec i) (takeWord_offerFirst (agentOf i) (encode i) s (inputsOf events))
    _ = .next { t with inputs := inputsOf events } := exec_with_inputs h _

/-- The run over the inputs that offer a list of events is the events' transitions one after the other. -/
theorem run_inputsOf (events : List Instr) (s : State) (hheld : NoneHeld events s) :
    Host.Core.run Sys2Proof.core events.length ({ s with inputs := inputsOf events } : State)
      = runEvents events { s with inputs := Inputs.empty } := by
  induction events generalizing s with
  | nil => rfl
  | cons i events ih =>
    obtain ⟨t, h⟩ := exec_answers i s
    obtain ⟨hfirst, hrest⟩ := hheld
    simp only [h] at hrest
    rw [List.length_cons, run_succ_of_step (step_inputsOf_cons hfirst h events), ih t hrest]
    exact (runEvents_cons (exec_with_inputs h _) events).symm

end Sys2Proof.Machine
end

section
/-! PROOF. The statements on the step: its offers, holds and refusals, and its order. -/

namespace Sys2Proof.Machine

/-- Settles O7: the word offered is its agent's oldest, and taking it leaves the others. -/
theorem stepRunsTheOfferedEvent : Obligations.StepRunsTheOfferedEvent := by
  intro s a turns w ws i hturn hqueue hdecode hheld
  rw [step_of_accepted (offered_of_queue hturn hqueue) hdecode hheld, takeWord_of_queue hturn hqueue]

/-- Settles O9: the two turns that bring no word. -/
theorem stepWithoutAnEventKeepsTheBlock : Obligations.StepWithoutAnEventKeepsTheBlock := by
  refine ⟨fun s hturn => step_of_quiet (offered_of_no_turn hturn), fun s a turns hturn hqueue => ?_⟩
  rw [step_of_absent (offered_of_empty_queue hturn hqueue), passTurn_of_turn hturn]

/-- Settles O10: the word is taken, then the mark is set. -/
theorem refusedWordOnlySetsTheMark : Obligations.RefusedWordOnlySetsTheMark := by
  intro s a turns w ws e hturn hqueue hdecode
  rw [step_of_invalid (offered_of_queue hturn hqueue) hdecode, takeWord_of_queue hturn hqueue]
  rfl

/-- Settles O12: a step drops at most the head of the schedule and of one queue. -/
theorem eachAgentsOrderIsKept : Obligations.EachAgentsOrderIsKept :=
  fun _ _ h => ⟨step_schedule h, step_queueOf h⟩

/-- Settles O13, by induction on the list of events. -/
theorem stepsFollowTheTotalOrder : Obligations.StepsFollowTheTotalOrder := run_inputsOf

/-- Settles O14: every way a turn can go answers a next state. -/
theorem everyStepAnswersANextState : Obligations.EveryStepAnswersANextState := step_answers

/-- Settles O15: a mark set at the beginning would still be set at the end. -/
theorem refusalStaysVisible : Obligations.RefusalStaysVisible := by
  intro n s t h hend
  by_contra hmark
  rw [Bool.not_eq_false] at hmark
  exact absurd (run_keeps_refused n h hmark) (by simp [hend])

/-- Settles O16: the words a step leaves in a queue were in that queue before. -/
theorem stepKeepsAgentsOwnEvents : Obligations.StepKeepsAgentsOwnEvents := by
  intro s t hown h a w hw
  refine hown a w ?_
  rcases step_queueOf h a with hqueue | ⟨hqueue, -⟩
  · exact hqueue ▸ hw
  · exact List.mem_of_mem_tail (hqueue ▸ hw)

end Sys2Proof.Machine
end

section
/-! PROOF. The state invariant (10_state.md R16, R17, R24 to R26), kept by each operation, by each event and by each
step. -/

namespace Sys2Proof.Machine

/-! ### The decoder's invariant -/

/-- Writing bit `i` of a frame with no bit at or above `i` leaves none above `i` (10_state.md R17). -/
theorem toNat_setFrameBit_lt {F : Frame} {i : BitVec 5} (h : F.toNat < 2 ^ i.toNat) (b : Bool) :
    (setFrameBit F i b).toNat < 2 ^ (i.toNat + 1) := by
  have hgrow : 2 ^ i.toNat < 2 ^ (i.toNat + 1) := Nat.pow_lt_pow_right (by decide) (Nat.lt_succ_self _)
  cases b with
  | false =>
    have hle : (F &&& ~~~(1#32 <<< i.toNat)).toNat ≤ F.toNat := BitVec.toNat_and .. ▸ Nat.and_le_left
    exact Nat.lt_of_le_of_lt hle (Nat.lt_trans h hgrow)
  | true =>
    have hbit : (1#32 <<< i.toNat).toNat ≤ 2 ^ i.toNat := by
      rw [BitVec.toNat_shiftLeft, Nat.shiftLeft_eq]
      exact (Nat.mod_le _ _).trans (by simp)
    exact BitVec.toNat_or .. ▸ Nat.or_lt_two_pow (Nat.lt_trans h hgrow) (Nat.lt_of_le_of_lt hbit hgrow)

/-- The partial frame after the appended bit has no bit above the one appended (10_state.md R17). -/
theorem toNat_appendedFrame_lt {s : State} (hcount : s.bitsAccumulated.toNat < 32)
    (hframe : s.partialFrame.toNat < 2 ^ s.bitsAccumulated.toNat) (b : Bool) :
    (appendedFrame b s).toNat < 2 ^ (s.bitsAccumulated.toNat + 1) := by
  have hindex : (s.bitsAccumulated.extractLsb' 0 5).toNat = s.bitsAccumulated.toNat := by
    simpa using hcount
  rw [appendedFrame, readCount_of_reachable hcount, ← hindex]
  exact toNat_setFrameBit_lt (hindex ▸ hframe) b

/-- One more than a count below 32 that is not the last. -/
theorem toNat_count_add_one {n : BitVec 6} (hcount : n.toNat < 32) (hmore : n + 1#6 ≠ 32#6) :
    (n + 1#6).toNat = n.toNat + 1 ∧ n.toNat < 31 := by
  bv_omega

theorem actOnSymbol_keeps_count {s : State} (hcount : s.bitsAccumulated.toNat < 32) (sym : Symbol) :
    (actOnSymbol sym s).bitsAccumulated.toNat < 32 := by
  have heffect := symbolEffect_actOnSymbol sym s
  generalize actOnSymbol sym s = t at heffect
  cases heffect with
  | ignores => exact hcount
  | starts | completes | aborts => exact Nat.zero_lt_succ _
  | appends b _ hmore =>
    rw [readCount_of_reachable hcount] at hmore
    obtain ⟨hnext, hlt⟩ := toNat_count_add_one hcount hmore
    simp only [readCount_of_reachable hcount, hnext]
    omega

theorem decoderInv_startFrame (s : State) : DecoderInv (startFrame s) := by simp [DecoderInv]

theorem decoderInv_of_awaitingStart {s : State} (hs : s.decState = .awaitingStart) (hcount : s.bitsAccumulated = 0#6) :
    DecoderInv s := by
  simp [DecoderInv, hs, hcount]

theorem decoderInv_actOnSymbol {s : State} (h : DecoderInv s) (sym : Symbol) : DecoderInv (actOnSymbol sym s) := by
  obtain ⟨hcount, hzero, hframe⟩ := h
  have heffect := symbolEffect_actOnSymbol sym s
  generalize actOnSymbol sym s = t at heffect
  cases heffect with
  | ignores => exact ⟨hcount, hzero, hframe⟩
  | starts => exact decoderInv_startFrame s
  | completes | aborts => exact decoderInv_of_awaitingStart rfl rfl
  | appends b hs hmore =>
    rw [readCount_of_reachable hcount] at hmore ⊢
    obtain ⟨hnext, hlt⟩ := toNat_count_add_one hcount hmore
    refine ⟨by simp only [hnext]; omega, fun hother => ?_, fun _ => ?_⟩
    · cases hother.symm.trans hs
    · simpa only [hnext] using toNat_appendedFrame_lt hcount (hframe hs) b

theorem decoderInv_exec {i : Instr} {s t : State} (hinv : DecoderInv s) (h : exec i s = .next t) : DecoderInv t := by
  cases eventEffect_of_exec h with
  | fall now => exact decoderInv_actOnSymbol hinv _
  | reset => exact decoderInv_of_awaitingStart rfl rfl
  | tickEnds => simpa [DecoderInv] using hinv
  | rise | frameHeld | frameStarts | repeatHeld | repeatStarts | tickRests | tickCounts | drain => exact hinv

/-! ### The sequencer's invariant -/

/-- The table's duration of a timed phase is at least 1 and fits `enc_remaining` (41_encoder.md R64, 10_state.md R25). -/
theorem phaseMicros_bounds {p : EncPhase} (hidle : p ≠ .idle) (hunused : p ≠ .unused) (F : Frame) (bit : BitVec 5) :
    1 ≤ phaseMicros p F bit ∧ phaseMicros p F bit < 2 ^ 14 := by
  cases p with
  | idle => exact absurd rfl hidle
  | unused => exact absurd rfl hunused
  | bitSpace => cases hbit : F.getLsbD bit.toNat <;> simp [phaseMicros, bitSpaceMicros, hbit]
  | leadMark | leadSpace | repeatSpace | bitMark | stopMark => simp [phaseMicros]

/-- The number of microseconds loaded on entering a timed phase is the table's. -/
theorem toNat_enterPhase_encRemaining {p : EncPhase} (hidle : p ≠ .idle) (hunused : p ≠ .unused) (s : State) :
    (enterPhase p s).encRemaining.toNat = phaseMicros p s.encFrame s.encBit := by
  rw [enterPhase_encRemaining, BitVec.toNat_ofNat, Nat.mod_eq_of_lt (phaseMicros_bounds hidle hunused _ _).2]

theorem sequencerInv_enterPhase {p : EncPhase} (hunused : p ≠ .unused) (s : State) :
    SequencerInv (enterPhase p s) := by
  refine ⟨hunused, rfl, fun (hidle : p = .idle) => ?_, fun (hidle : p ≠ .idle) => ?_⟩
  · simp [hidle, phaseMicros]
  · rw [toNat_enterPhase_encRemaining hidle hunused]
    exact ⟨(phaseMicros_bounds hidle hunused _ _).1, Nat.le_refl _⟩

/-- With more than one microsecond left, counting down leaves one less, and at least one. -/
theorem toNat_countDown_encRemaining {s : State} (hmore : 1 < s.encRemaining.toNat) :
    (countDown s).encRemaining.toNat = s.encRemaining.toNat - 1 := by
  rw [countDown_encRemaining]
  bv_omega

theorem sequencerInv_countDown {s : State} (h : SequencerInv s) (hmore : 1 < s.encRemaining.toNat) :
    SequencerInv (countDown s) := by
  obtain ⟨hunused, hlevel, hrest, htimed⟩ := h
  refine ⟨hunused, hlevel, fun hidle => ?_, fun hidle => ?_⟩
  · simp [hrest hidle] at hmore
  · have hbound := (htimed hidle).2
    rw [toNat_countDown_encRemaining hmore]
    exact ⟨by omega, (Nat.sub_le _ _).trans hbound⟩

theorem sequencerInv_advance {s : State} (h : SequencerInv s) : SequencerInv (advance s) := by
  rcases advance_cases s with ⟨-, e⟩ | ⟨-, -, e⟩ | ⟨-, -, e⟩ | ⟨-, e⟩ | ⟨-, e⟩ | ⟨-, e⟩ | ⟨-, -, e⟩ | ⟨-, -, e⟩ | ⟨-, e⟩
    | ⟨-, e⟩ <;> rw [e]
  case inl | inr.inr.inr.inr.inr.inr.inr.inr.inr => exact h
  all_goals exact sequencerInv_enterPhase (by simp) _

theorem sequencerInv_exec {i : Instr} {s t : State} (hinv : SequencerInv s) (h : exec i s = .next t) :
    SequencerInv t := by
  cases eventEffect_of_exec h with
  | fall now => simpa [SequencerInv] using hinv
  | frameStarts | repeatStarts => exact sequencerInv_enterPhase (by decide) _
  | tickCounts _ _ hmore => exact sequencerInv_countDown hinv hmore
  | tickEnds => exact sequencerInv_advance hinv
  | reset => exact ⟨by simp, rfl, fun _ => rfl, fun hidle => absurd rfl hidle⟩
  | rise | frameHeld | repeatHeld | tickRests | drain => exact hinv

/-! ### The transmission's invariant -/

/-- What TX_FRAME sends is a valid frame with its operands in their fields (41_encoder.md R66). -/
theorem assembleFrame_fields (address : Address) (command : Command) :
    checksumOk (assembleFrame address command) = true ∧ frameAddress (assembleFrame address command) = address
      ∧ frameCommand (assembleFrame address command) = command :=
  (eq_assembleFrame_iff _ address command).1 rfl

theorem transmissionInv_advance {s : State} (h : TransmissionInv s) : TransmissionInv (advance s) := by
  obtain ⟨hfull, hrepeat, hbit, hvalid⟩ := h
  rcases advance_cases s with ⟨hp, e⟩ | ⟨hp, hk, e⟩ | ⟨hp, hk, e⟩ | ⟨hp, e⟩ | ⟨hp, e⟩ | ⟨hp, e⟩ | ⟨hp, hb, e⟩
    | ⟨hp, hb, e⟩ | ⟨hp, e⟩ | ⟨hp, e⟩ <;> rw [e] <;> simp_all [TransmissionInv]

theorem transmissionInv_exec {i : Instr} {s t : State} (hinv : TransmissionInv s) (h : exec i s = .next t) :
    TransmissionInv t := by
  cases eventEffect_of_exec h with
  | fall now => simpa [TransmissionInv] using hinv
  | frameStarts address command => simp [TransmissionInv, (assembleFrame_fields address command).1]
  | repeatStarts | reset => simp [TransmissionInv]
  | tickEnds => exact transmissionInv_advance hinv
  | rise | frameHeld | repeatHeld | tickRests | tickCounts | drain => exact hinv

/-! ### The whole invariant -/

theorem stateInv_exec {i : Instr} {s t : State} (hinv : StateInv s) (h : exec i s = .next t) : StateInv t := by
  obtain ⟨hdecoder, hsequencer, htransmission⟩ := hinv
  exact ⟨decoderInv_exec hdecoder h, sequencerInv_exec hsequencer h, transmissionInv_exec htransmission h⟩

theorem stateInv_step {s t : State} (hinv : StateInv s) (h : step s = .next t) : StateInv t := by
  have htaken : ∀ a, StateInv (takeWord a s) := fun _ => hinv
  cases stepEffect_of_step h with
  | quiet | absent | held => exact hinv
  | refused => exact hinv
  | accepted _ _ _ hexec => exact stateInv_exec (htaken _) hexec

/-- Settles O17: each of its three parts is kept by every event, and the queues are in none of them. -/
theorem stepKeepsTheStateInvariant : Obligations.StepKeepsTheStateInvariant := fun _ _ => stateInv_step

/-- Settles O18: a decoder in AWAITING_START with count 0, an idle sequencer. -/
theorem resetSatisfiesTheStateInvariant : Obligations.ResetSatisfiesTheStateInvariant :=
  ⟨decoderInv_of_awaitingStart rfl rfl, by decide, by decide⟩

/-- Settles O23: an event keeps the count below 32; RESET, a LEADING and an abort write it and establish the decoder's
invariant, whatever the count was. -/
theorem countStaysReachable : Obligations.CountStaysReachable := by
  refine ⟨fun i s t hcount h => ?_, fun now s d hd => ⟨?_, fun hs hlower hupper => ?_, fun hs hzero hone => ?_⟩⟩
  · cases eventEffect_of_exec h with
    | fall now => exact Nat.le_of_lt_succ (actOnSymbol_keeps_count (Nat.lt_succ_of_le hcount) _)
    | tickEnds => simpa using hcount
    | reset => exact Nat.zero_le _
    | rise | frameHeld | frameStarts | repeatHeld | repeatStarts | tickRests | tickCounts | drain => exact hcount
  · exact ⟨_, exec_of_eventEffect .reset, rfl, decoderInv_of_awaitingStart rfl rfl⟩
  · exact ⟨_, (fallInAwaitingStart now s d hs hd).1 ⟨hlower, hupper⟩, rfl, rfl, decoderInv_startFrame s⟩
  · exact ⟨_, fallAbortsOnAnyOtherDuration now s d hs hd hzero hone, rfl, rfl, decoderInv_of_awaitingStart rfl rfl⟩

end Sys2Proof.Machine
end

section
/-! PROOF. The hold (41_encoder.md R73), phase code 7 (93_implementation_defined.md X2), and who writes what
(10_state.md R21 to R26, 60_exceptions.md R132). -/

namespace Sys2Proof.Machine

/-! ### When the encoder is busy -/

theorem busy_eq_false_iff (s : State) : busy s = false ↔ s.encPhase = .idle := by
  simp [busy]

theorem busy_eq_true_iff (s : State) : busy s = true ↔ s.encPhase ≠ .idle := by
  simp [busy]

/-- While the encoder is idle no event is held (41_encoder.md R73). -/
theorem held_of_idle {s : State} (hidle : busy s = false) (i : Instr) : held i s = false := by
  cases i with
  | txFrame _ _ | txRepeat => exact hidle
  | edgeFall _ | edgeRise _ | tick | drain | reset => rfl

/-- While the encoder is busy the requests are held (41_encoder.md R73). -/
theorem held_of_isRequest {s : State} (hbusy : busy s = true) {i : Instr} (hi : isRequest i = true) :
    held i s = true := by
  cases i with
  | txFrame _ _ | txRepeat => exact hbusy
  | edgeFall _ | edgeRise _ | tick | drain | reset => cases hi

/-- Only the end of STOP_MARK makes the encoder idle (41_encoder.md R69). -/
theorem advance_encPhase_eq_idle_iff (s : State) :
    (advance s).encPhase = .idle ↔ s.encPhase = .idle ∨ s.encPhase = .stopMark := by
  rcases advance_cases s with h | h | h | h | h | h | h | h | h | h <;> simp [h]

/-- What ends a transmission: RESET or the TICK that ends STOP_MARK (41_encoder.md R73, R74). -/
theorem eq_reset_or_last_tick_of_idle {i : Instr} {s t : State} (h : exec i s = .next t) (hbusy : busy s = true)
    (hidle : busy t = false) : i = .reset ∨ (i = .tick ∧ s.encPhase = .stopMark ∧ s.encRemaining.toNat ≤ 1) := by
  rw [busy_eq_true_iff] at hbusy
  rw [busy_eq_false_iff] at hidle
  cases eventEffect_of_exec h with
  | reset => exact .inl rfl
  | tickEnds _ _ hlast =>
    rw [advance_encPhase_eq_idle_iff] at hidle
    exact .inr ⟨rfl, hidle.resolve_left hbusy, hlast⟩
  | fall => simp [hbusy] at hidle
  | frameStarts | repeatStarts => cases hidle
  | rise | frameHeld | repeatHeld | tickRests | tickCounts | drain => exact absurd hidle hbusy

/-! ### The decoder's part, `frameReady` apart -/

/-- What the decoder holds but the mailbox's flag, which a DRAIN clears: the part an edge works on. -/
def assembly (s : State) : DecoderPart := { decoderPart s with frameReady := false }

theorem assembly_eq_iff {s s' : State} :
    assembly s = assembly s' ↔
      s.decState = s'.decState ∧ s.lastEdgeTimestamp = s'.lastEdgeTimestamp ∧ s.bitsAccumulated = s'.bitsAccumulated
        ∧ s.partialFrame = s'.partialFrame ∧ s.completedFrame = s'.completedFrame ∧ s.freeDraws = s'.freeDraws := by
  simp [assembly, decoderPart]

theorem decoderPart_eq_iff {s s' : State} :
    decoderPart s = decoderPart s' ↔ assembly s = assembly s' ∧ s.frameReady = s'.frameReady := by
  simp [assembly, decoderPart]
  tauto

section
variable {s s' : State} (ha : assembly s = assembly s')
include ha

theorem readCount_congr : readCount s = readCount s' := by
  simp_all [assembly_eq_iff, readCount, countReachable]

theorem appendedFrame_congr (b : Bool) : appendedFrame b s = appendedFrame b s' := by
  simp only [appendedFrame, readCount_congr ha, (assembly_eq_iff.1 ha).2.2.2.1]

theorem completesFrame_congr (sym : Symbol) : completesFrame sym s = completesFrame sym s' := by
  simp only [completesFrame, readCount_congr ha, (assembly_eq_iff.1 ha).1]

theorem completes_congr (i : Instr) : completes i s = completes i s' := by
  cases i with
  | edgeFall now => simp only [completes, (assembly_eq_iff.1 ha).2.1, completesFrame_congr ha]
  | edgeRise _ | txFrame _ _ | txRepeat | tick | drain | reset => rfl

/-- What a symbol makes of the decoder is a function of what the decoder held: it goes the same way in both states. -/
theorem assembly_actOnSymbol_congr (sym : Symbol) : assembly (actOnSymbol sym s) = assembly (actOnSymbol sym s') := by
  obtain ⟨hd, hl, hn, hp, hc, hf⟩ := assembly_eq_iff.1 ha
  have hread := readCount_congr ha
  have happend := appendedFrame_congr ha
  have heffect := symbolEffect_actOnSymbol sym s
  generalize actOnSymbol sym s = t at heffect
  cases heffect with
  | ignores hs hsym => rw [actOnSymbol_of_symbolEffect (.ignores (hd ▸ hs) hsym), ha]
  | starts hs =>
    rw [actOnSymbol_of_symbolEffect (.starts (hd ▸ hs))]
    simp [assembly_eq_iff, *]
  | appends b hs hmore =>
    rw [actOnSymbol_of_symbolEffect (.appends b (hd ▸ hs) (hread ▸ hmore))]
    simp [assembly_eq_iff, countReachable, *]
  | completes b hs hlast =>
    rw [actOnSymbol_of_symbolEffect (.completes b (hd ▸ hs) (hread ▸ hlast))]
    simp [assembly_eq_iff, countReachable, *]
  | aborts hs hzero hone =>
    rw [actOnSymbol_of_symbolEffect (.aborts (hd ▸ hs) hzero hone)]
    simp [assembly_eq_iff, *]

theorem assembly_recordEdge_congr (now : Timestamp) : assembly (recordEdge now s) = assembly (recordEdge now s') := by
  simp_all [assembly_eq_iff]

/-- What an event makes of the decoder is a function of what the decoder held. -/
theorem assembly_exec_congr {i : Instr} {t t' : State} (h : exec i s = .next t) (h' : exec i s' = .next t') :
    assembly t = assembly t' := by
  cases i with
  | edgeFall now =>
    rw [eq_of_eventEffect h (.fall now), eq_of_eventEffect h' (.fall now), ← (assembly_eq_iff.1 ha).2.1]
    exact assembly_recordEdge_congr (assembly_actOnSymbol_congr ha _) now
  | edgeRise now =>
    rw [eq_of_eventEffect h (.rise now), eq_of_eventEffect h' (.rise now)]
    exact assembly_recordEdge_congr ha now
  | txFrame _ _ | txRepeat | tick =>
    simpa only [assembly, decoderPart_exec_of_encoder_event h (by simp [agentOf]),
      decoderPart_exec_of_encoder_event h' (by simp [agentOf])] using ha
  | drain => simpa only [assembly, decoderPart_exec_drain h, decoderPart_exec_drain h'] using ha
  | reset =>
    rw [eq_of_eventEffect h .reset, eq_of_eventEffect h' .reset]
    simp [assembly_eq_iff, (assembly_eq_iff.1 ha).2.2.2.2.2]

end

/-- What an event makes of the decoder's part is a function of that part. -/
theorem decoderPart_exec_congr {i : Instr} {s s' t t' : State} (hd : decoderPart s = decoderPart s')
    (h : exec i s = .next t) (h' : exec i s' = .next t') : decoderPart t = decoderPart t' := by
  obtain ⟨ha, hready⟩ := decoderPart_eq_iff.1 hd
  refine decoderPart_eq_iff.2 ⟨assembly_exec_congr ha h h', ?_⟩
  rw [exec_frameReady h, exec_frameReady h', hready, completes_congr ha]

/-! ### The statements -/

/-- Settles O8: a held event changes nothing, and what makes a busy encoder idle ends STOP_MARK or is RESET. -/
theorem requestsAreHeldWhileBusy : Obligations.RequestsAreHeldWhileBusy := by
  intro s hbusy
  refine ⟨fun a c => exec_of_held hbusy, exec_of_held hbusy, fun a turns w ws i hturn hqueue hdecode hi => ?_,
    fun t hlift => ?_, fun i t h hidle => eq_reset_or_last_tick_of_idle h hbusy hidle⟩
  · rw [step_of_held (offered_of_queue hturn hqueue) hdecode (held_of_isRequest hbusy hi), passTurn_of_turn hturn]
  · have hidle : busy t = false := by
      rcases hlift with h | ⟨hp, hlast, h⟩
      · rw [eq_of_eventEffect h .reset]
        rfl
      · cases (exec_tick_ends_stopMark hlast hp).symm.trans h
        rfl
    exact ⟨hidle, held_of_idle hidle⟩

/-- Settles O37: the phase is neither timed nor idle, and only RESET writes it from there. -/
theorem unusedPhaseIsStuck : Obligations.UnusedPhaseIsStuck := by
  intro s hp
  have hbusy : busy s = true := by simp [busy, hp]
  refine ⟨hbusy, exec_of_eventEffect (.tickRests (.inr hp)), fun a c => exec_of_held hbusy, exec_of_held hbusy,
    fun i t h => ?_⟩
  cases eventEffect_of_exec h with
  | reset => simp
  | frameStarts _ _ hidle | repeatStarts hidle => simp [hbusy] at hidle
  | tickCounts _ hunused | tickEnds _ hunused => exact absurd hp hunused
  | fall | rise | frameHeld | repeatHeld | tickRests | drain => simp [hp]

/-- Settles O51: an event goes the same way in two states that agree on the part it works on. -/
theorem encoderAndDecoderDoNotInterfere : Obligations.EncoderAndDecoderDoNotInterfere :=
  fun _ _ _ _ _ h h' => ⟨fun hd => decoderPart_exec_congr hd h h', fun he => encoderPart_exec_congr he h h'⟩

/-- Settles O52: an edge acts on the decoder, a DRAIN on the mailbox. -/
theorem detectorAndConsumerFrame : Obligations.DetectorAndConsumerFrame := by
  intro i s t hi h
  refine ⟨?_, exec_refused h, exec_inputs h, fun hdetector => ?_, fun hconsumer => ?_⟩
  · cases eventEffect_of_exec h with
    | fall | rise | drain => simp
    | frameHeld | frameStarts | repeatHeld | repeatStarts | tickRests | tickCounts | tickEnds | reset =>
      simp [agentOf] at hi
  · have hdrain : i ≠ .drain := by rintro rfl; cases hdetector
    have htick : i ≠ .tick := by rintro rfl; cases hdetector
    simp [exec_outputs h, hdrain, htick]
  · cases i with
    | drain => exact decoderPart_exec_drain h
    | edgeFall _ | edgeRise _ | txFrame _ _ | txRepeat | tick | reset => cases hconsumer

/-- Settles O53: for each element, the events that write it. -/
theorem encoderElementsHaveTheirWriters : Obligations.EncoderElementsHaveTheirWriters := by
  intro i s t h
  refine ⟨?_, ?_, ?_, exec_refused h, exec_inputs h⟩
  · cases eventEffect_of_exec h with
    | frameStarts a c => exact .inr (.inl ⟨a, c, rfl⟩)
    | reset => exact .inr (.inr rfl)
    | fall | rise | frameHeld | repeatHeld | repeatStarts | tickRests | tickCounts | tickEnds | drain => simp
  · cases eventEffect_of_exec h with
    | frameStarts a c => exact .inr (.inl ⟨a, c, rfl⟩)
    | repeatStarts => exact .inr (.inr (.inl rfl))
    | reset => exact .inr (.inr (.inr rfl))
    | fall | rise | frameHeld | repeatHeld | tickRests | tickCounts | tickEnds | drain => simp
  · cases eventEffect_of_exec h with
    | frameHeld | frameStarts | repeatHeld | repeatStarts => exact .inr (.inl rfl)
    | tickRests | tickCounts | tickEnds => exact .inr (.inr (.inl rfl))
    | reset => exact .inr (.inr (.inr rfl))
    | fall | rise | drain => simp

end Sys2Proof.Machine
end

section
/-! PROOF. The mailbox's flag between two DRAINs (44_frame_port.md R109). -/

namespace Sys2Proof.Machine

/-- Without a completion the flag stays clear. -/
theorem frameReady_of_noCompletion {events : List Instr} {s t : State} (hready : s.frameReady = false)
    (hnone : NoCompletion events s) (h : runEvents events s = .next t) : t.frameReady = false := by
  induction events generalizing s with
  | nil =>
    cases h
    exact hready
  | cons i events ih =>
    obtain ⟨u, hu⟩ := exec_answers i s
    obtain ⟨hfirst, hrest⟩ := hnone
    simp only [hu] at hrest
    rw [runEvents_cons hu] at h
    exact ih (by simp [exec_frameReady hu, hready, hfirst]) hrest h

/-- Settles O43: the first DRAIN clears the flag, and only a completion sets it again. -/
theorem secondDrainReturnsNotReady : Obligations.SecondDrainReturnsNotReady := by
  intro s s₁ t events hdrain hnone hrun
  have hcleared : s₁.frameReady = false := by simp [exec_frameReady hdrain]
  have hready := frameReady_of_noCompletion hcleared hnone hrun
  rw [exec_of_eventEffect .drain, hready]
  rfl

end Sys2Proof.Machine
end

section
/-! PROOF. What TX_FRAME sends, how long it lasts and its ideal edges (41_encoder.md R66, R70, R72, 30_encoding.md R60,
R61). -/

namespace Sys2Proof.Machine

/-! ### The number of ones in a word -/

/-- A bit position of two words put together is a position of the lower word or of the higher one. -/
theorem popcount_append {m n : Nat} (high : BitVec m) (low : BitVec n) :
    popcount (high ++ low) = popcount high + popcount low := by
  have hlow : (List.range n).filter (fun i => (high ++ low).getLsbD i) = (List.range n).filter (low.getLsbD ·) := by
    refine List.filter_congr fun i hi => ?_
    simp [BitVec.getLsbD_append, List.mem_range.1 hi]
  have hhigh : (fun i => (high ++ low).getLsbD i) ∘ (n + ·) = (high.getLsbD ·) := by
    funext i
    simp [BitVec.getLsbD_append]
  have hrange : List.range (m + n) = List.range n ++ (List.range m).map (n + ·) := by
    rw [Nat.add_comm, List.range_add]
  rw [popcount, hrange, List.filter_append, List.length_append, hlow, List.filter_map, List.length_map, hhigh,
    Nat.add_comm]
  rfl

theorem popcount_not_add_popcount {n : Nat} (v : BitVec n) : popcount (~~~v) + popcount v = n := by
  have hnot : (List.range n).filter (fun i => (~~~v).getLsbD i) = (List.range n).filter (fun i => !v.getLsbD i) := by
    refine List.filter_congr fun i hi => ?_
    simp [List.mem_range.1 hi]
  have htotal := List.length_eq_length_filter_add (l := List.range n) (v.getLsbD ·)
  rw [List.length_range] at htotal
  rw [popcount, hnot, Nat.add_comm]
  exact htotal.symm

theorem popcount_le {n : Nat} (v : BitVec n) : popcount v ≤ n := by
  simpa [popcount] using List.length_filter_le (v.getLsbD ·) (List.range n)

/-- The frame is the inverted command, the command and the address, side by side (00_scope.md R12). -/
theorem assembleFrame_eq_append (address : Address) (command : Command) :
    assembleFrame address command = ~~~command ++ command ++ address := by
  apply BitVec.eq_of_toNat_eq
  have hinv : (~~~command).toNat = 255 - command.toNat := BitVec.toNat_not
  have haddress := address.isLt
  have hcommand := command.isLt
  rw [toNat_assembleFrame, BitVec.toNat_append, BitVec.toNat_append, ← Nat.shiftLeft_add_eq_or_of_lt hcommand,
    ← Nat.shiftLeft_add_eq_or_of_lt haddress, Nat.shiftLeft_eq, Nat.shiftLeft_eq, hinv]
  omega

/-- The command and its inverse have eight ones between them (41_encoder.md R72). -/
theorem popcount_assembleFrame (address : Address) (command : Command) :
    popcount (assembleFrame address command) = popcount address + 8 := by
  have hcommand := popcount_not_add_popcount command
  rw [assembleFrame_eq_append, popcount_append, popcount_append, hcommand, Nat.add_comm]

/-! ### How long a waveform lasts -/

@[simp] theorem segmentsMicros_nil : segmentsMicros [] = 0 := rfl

@[simp] theorem segmentsMicros_cons (g : Segment) (gs : List Segment) :
    segmentsMicros (g :: gs) = g.micros + segmentsMicros gs := by
  simp [segmentsMicros]

@[simp] theorem segmentsMicros_append (gs gs' : List Segment) :
    segmentsMicros (gs ++ gs') = segmentsMicros gs + segmentsMicros gs' := by
  simp [segmentsMicros]

theorem bitSpaceMicros_eq (b : Bool) : bitSpaceMicros b = 560 + 1130 * b.toNat := by
  cases b <;> rfl

/-- A data bit lasts 1120 microseconds, 1130 more when it is 1 (41_encoder.md R72). -/
theorem segmentsMicros_bits (F : Frame) (bits : List Nat) :
    segmentsMicros (bits.flatMap (bitSegments F))
      = 1120 * bits.length + 1130 * (bits.filter (F.getLsbD ·)).length := by
  induction bits with
  | nil => rfl
  | cons i bits ih =>
    rw [List.flatMap_cons, segmentsMicros_append, ih, bitSegments, segmentsMicros_cons, segmentsMicros_cons,
      segmentsMicros_nil, bitSpaceMicros_eq, List.length_cons]
    cases hbit : F.getLsbD i <;> simp [hbit] <;> omega

theorem segmentsMicros_frameSegments (F : Frame) : segmentsMicros (frameSegments F) = frameTicks F := by
  simp only [frameSegments, segmentsMicros_append, segmentsMicros_cons, segmentsMicros_nil, segmentsMicros_bits,
    List.length_range, frameTicks, popcount, Config.leadingPulse, Config.leadingSpace, Config.pulse]
  omega

/-! ### The ideal edges -/

/-- Every mark gives one FALL and one RISE, a space gives no edge (30_encoding.md R61). -/
theorem countP_edgesOf (p : Instr → Bool) {fall rise : Bool} (hfall : ∀ t, p (.edgeFall t) = fall)
    (hrise : ∀ t, p (.edgeRise t) = rise) (t : Timestamp) (gs : List Segment) :
    (edgesOf t gs).countP p = (fall.toNat + rise.toNat) * gs.countP Segment.on := by
  induction gs generalizing t with
  | nil => rfl
  | cons g gs ih =>
    rw [edgesOf, List.countP_append, ih]
    cases hon : g.on
    · simp [hon]
    · cases fall <;> cases rise <;> simp [hon, hfall, hrise] <;> omega

theorem countP_on_bits (F : Frame) (bits : List Nat) :
    (bits.flatMap (bitSegments F)).countP Segment.on = bits.length := by
  induction bits with
  | nil => rfl
  | cons i bits ih => simp [bitSegments, ih]

/-- A full frame has 34 marks: the leading one, one for each bit, the stop mark (30_encoding.md R60). -/
theorem countP_on_frameSegments (F : Frame) : (frameSegments F).countP Segment.on = 34 := by
  simp [frameSegments, countP_on_bits]

/-! ### The statements -/

/-- Settles O34: the fields of the frame, and its inverted byte by the checksum relation. -/
theorem assembledFrameIsValid : Obligations.AssembledFrameIsValid := by
  intro a c
  obtain ⟨hvalid, haddress, hcommand⟩ := assembleFrame_fields a c
  have hinverted : frameInverted (assembleFrame a c) = ~~~c := by
    rw [(checksumOk_iff _).1 hvalid, frameExpected, hcommand]
  exact ⟨haddress, hcommand, hinverted, hvalid⟩

/-- Settles O40: the segments' sum bit by bit, and the ones of the three fields. -/
theorem fullFrameBusyTime : Obligations.FullFrameBusyTime := by
  refine ⟨segmentsMicros_frameSegments, fun a c => ⟨popcount_assembleFrame a c, ?_⟩⟩
  have hle := popcount_le a
  rw [frameTicks, popcount_assembleFrame]
  omega

/-- Settles O55: two edges for each of the 34 marks, and the repeat code's two marks at 0 and 11250. -/
theorem idealEdgesOfTheWaveforms : Obligations.IdealEdgesOfTheWaveforms := by
  intro t0 F
  have hmarks := countP_on_frameSegments F
  refine ⟨?_, ?_, ?_, ?_⟩
  · rw [necFrame, countP_edgesOf _ (fall := true) (rise := false) (fun _ => rfl) (fun _ => rfl), hmarks]
    rfl
  · rw [necFrame, countP_edgesOf _ (fall := false) (rise := true) (fun _ => rfl) (fun _ => rfl), hmarks]
    rfl
  · rw [necFrame, ← List.countP_true, countP_edgesOf _ (fall := true) (rise := true) (fun _ => rfl) (fun _ => rfl),
      hmarks]
    rfl
  · simp [necRepeat, repeatSegments, edgesOf, BitVec.add_assoc]

end Sys2Proof.Machine
end

section
/-! PROOF. The waveform still to come of a state (41_encoder.md R70, R71): a TICK takes one microsecond off its front, so
that the emitter, `busy` and `tx_done` after `k` TICKs are read from it (R72, R74). -/

namespace Sys2Proof.Machine

/-! ### Segments, one microsecond later -/

/-- What is left of a waveform one microsecond later. -/
def afterMicro : List Segment → List Segment
  | [] => []
  | g :: gs => if 1 < g.micros then ⟨g.on, g.micros - 1⟩ :: gs else gs

/-- A waveform whose first segment, where there is one, is not over. -/
def Running (gs : List Segment) : Prop := ∀ g ∈ gs.head?, 1 ≤ g.micros

theorem levelAt_afterMicro {gs : List Segment} (h : Running gs) (k : Nat) :
    levelAt (afterMicro gs) k = levelAt gs (k + 1) := by
  cases gs with
  | nil => rfl
  | cons g gs =>
    have hpos : 1 ≤ g.micros := h g rfl
    by_cases hmore : 1 < g.micros
    · have hlt : k < g.micros - 1 ↔ k + 1 < g.micros := by omega
      have hrest : k - (g.micros - 1) = k + 1 - g.micros := by omega
      simp only [afterMicro, if_pos hmore, levelAt, hlt, hrest]
    · have hone : g.micros = 1 := by omega
      simp [afterMicro, levelAt, hone]

theorem segmentsMicros_afterMicro {gs : List Segment} (h : Running gs) :
    segmentsMicros (afterMicro gs) = segmentsMicros gs - 1 := by
  cases gs with
  | nil => rfl
  | cons g gs =>
    have hpos : 1 ≤ g.micros := h g rfl
    by_cases hmore : 1 < g.micros <;> simp [afterMicro, hmore] <;> omega

/-! ### The waveform still to come -/

/-- The data bits from number `n` on, and the stop mark (30_encoding.md R60). -/
def bitsFrom (F : Frame) (n : Nat) : List Segment :=
  (List.range' n (32 - n)).flatMap (bitSegments F) ++ [⟨true, Config.pulse⟩]

theorem bitsFrom_of_lt (F : Frame) {n : Nat} (hn : n < 32) :
    bitsFrom F n = ⟨true, Config.pulse⟩ :: ⟨false, bitSpaceMicros (F.getLsbD n)⟩ :: bitsFrom F (n + 1) := by
  have hcons : 32 - n = (32 - (n + 1)) + 1 := by omega
  rw [bitsFrom, hcons, List.range'_succ]
  rfl

/-- The segments after the running one (41_encoder.md R69, R70, R71). -/
def segmentsAfter (s : State) : List Segment :=
  match s.encPhase with
  | .idle => []
  | .leadMark =>
    match s.encKind with
    | .fullFrame => ⟨false, Config.leadingSpace⟩ :: bitsFrom s.encFrame 0
    | .repeatCode => [⟨false, Config.repeatSpace⟩, ⟨true, Config.pulse⟩]
  | .leadSpace => bitsFrom s.encFrame 0
  | .repeatSpace => [⟨true, Config.pulse⟩]
  | .bitMark => ⟨false, bitSpaceMicros (s.encFrame.getLsbD s.encBit.toNat)⟩ :: bitsFrom s.encFrame (s.encBit.toNat + 1)
  | .bitSpace => bitsFrom s.encFrame (s.encBit.toNat + 1)
  | .stopMark => []
  | .unused => []

/-- The waveform still to come: what is left of the running segment, and the segments after it. -/
def segmentsToCome (s : State) : List Segment :=
  if busy s then ⟨s.emitOn, s.encRemaining.toNat⟩ :: segmentsAfter s else []

theorem segmentsToCome_of_idle {s : State} (hidle : busy s = false) : segmentsToCome s = [] := by
  simp [segmentsToCome, hidle]

theorem segmentsToCome_of_busy {s : State} (hbusy : busy s = true) :
    segmentsToCome s = ⟨s.emitOn, s.encRemaining.toNat⟩ :: segmentsAfter s := by
  simp [segmentsToCome, hbusy]

/-- On entering a timed phase its whole segment is still to come. -/
theorem segmentsToCome_enterPhase {p : EncPhase} (hidle : p ≠ .idle) (hunused : p ≠ .unused) (s : State) :
    segmentsToCome (enterPhase p s)
      = ⟨phaseLevel p, phaseMicros p s.encFrame s.encBit⟩ :: segmentsAfter (enterPhase p s) := by
  rw [segmentsToCome_of_busy (by simp [busy, hidle]), toNat_enterPhase_encRemaining hidle hunused]
  rfl

/-- The end of a segment brings on the segments after it (41_encoder.md R69). -/
theorem segmentsToCome_advance {s : State} (hidle : s.encPhase ≠ .idle) (hunused : s.encPhase ≠ .unused) :
    segmentsToCome (advance s) = segmentsAfter s := by
  have hbit := s.encBit.isLt
  rcases advance_cases s with ⟨hp, e⟩ | ⟨hp, hk, e⟩ | ⟨hp, hk, e⟩ | ⟨hp, e⟩ | ⟨hp, e⟩ | ⟨hp, e⟩ | ⟨hp, hb, e⟩
    | ⟨hp, hb, e⟩ | ⟨hp, e⟩ | ⟨hp, e⟩ <;> rw [e]
  case inl => exact absurd hp hidle
  case inr.inr.inr.inr.inr.inr.inr.inr.inr => exact absurd hp hunused
  case inr.inr.inr.inr.inr.inr.inr.inr.inl => simp [segmentsToCome, busy, segmentsAfter, hp]
  all_goals rw [segmentsToCome_enterPhase (by decide) (by decide)]
  · simp [segmentsAfter, phaseLevel, phaseMicros, hp, hk]
  · simp [segmentsAfter, phaseLevel, phaseMicros, hp, hk]
  · simp [segmentsAfter, phaseLevel, phaseMicros, hp, bitsFrom_of_lt (n := 0)]
  · simp [segmentsAfter, phaseLevel, phaseMicros, hp]
  · simp [segmentsAfter, phaseLevel, phaseMicros, hp]
  · simp [segmentsAfter, phaseLevel, phaseMicros, hp, hb, bitsFrom]
  · have hnext : (s.encBit + 1#5).toNat = s.encBit.toNat + 1 := by bv_omega
    have hlt : s.encBit.toNat + 1 < 32 := by bv_omega
    simp [segmentsAfter, phaseLevel, phaseMicros, hp, hnext, bitsFrom_of_lt _ hlt]

section
variable {s : State} (hinv : SequencerInv s)
include hinv

theorem one_le_encRemaining (hbusy : busy s = true) : 1 ≤ s.encRemaining.toNat := by
  obtain ⟨-, -, -, htimed⟩ := hinv
  exact (htimed ((busy_eq_true_iff s).1 hbusy)).1

theorem running_segmentsToCome : Running (segmentsToCome s) := by
  cases hbusy : busy s with
  | false => simp [segmentsToCome_of_idle hbusy, Running]
  | true => simpa [segmentsToCome_of_busy hbusy, Running] using one_le_encRemaining hinv hbusy

/-- The emitter shows the level at the front of the waveform still to come (10_state.md R26). -/
theorem emitOn_eq_levelAt_zero : s.emitOn = levelAt (segmentsToCome s) 0 := by
  cases hbusy : busy s with
  | false => rw [segmentsToCome_of_idle hbusy, hinv.2.1, (busy_eq_false_iff s).1 hbusy]; rfl
  | true =>
    have hpos : 0 < s.encRemaining.toNat := one_le_encRemaining hinv hbusy
    simp [segmentsToCome_of_busy hbusy, levelAt, hpos]

/-- `busy` says that some of the waveform is still to come (10_state.md R27). -/
theorem busy_eq_decide_pos : busy s = decide (0 < segmentsMicros (segmentsToCome s)) := by
  cases hbusy : busy s with
  | false => simp [segmentsToCome_of_idle hbusy]
  | true =>
    have hpos : 0 < s.encRemaining.toNat := one_le_encRemaining hinv hbusy
    simp [segmentsToCome_of_busy hbusy]
    omega

/-- A TICK takes one microsecond off the waveform still to come (41_encoder.md R68). -/
theorem segmentsToCome_tick {t : State} (h : exec .tick s = .next t) :
    segmentsToCome t = afterMicro (segmentsToCome s) := by
  cases eventEffect_of_exec h with
  | tickRests hrest =>
    have hidle : busy s = false := (busy_eq_false_iff s).2 (hrest.resolve_right hinv.1)
    rw [segmentsToCome_of_idle hidle]
    rfl
  | tickCounts hidle _ hmore =>
    have hbusy : busy s = true := (busy_eq_true_iff s).2 hidle
    have hbusy' : busy (countDown s) = true := hbusy
    rw [segmentsToCome_of_busy hbusy, segmentsToCome_of_busy hbusy', toNat_countDown_encRemaining hmore]
    exact (if_pos hmore).symm
  | tickEnds hidle hunused hlast =>
    rw [segmentsToCome_advance hidle hunused, segmentsToCome_of_busy ((busy_eq_true_iff s).2 hidle)]
    exact (if_neg (Nat.not_lt.2 hlast)).symm

end

/-! ### `tx_done` -/

/-- An event other than RESET signals `tx_done` exactly when it makes a busy encoder idle (41_encoder.md R74). -/
theorem txDone_iff_becomes_idle {i : Instr} {s t : State} (h : exec i s = .next t) (hreset : i ≠ .reset) :
    i = .tick ∧ s.encPhase = .stopMark ∧ s.encRemaining.toNat ≤ 1 ↔ busy s = true ∧ busy t = false := by
  constructor
  · rintro ⟨rfl, hp, hlast⟩
    cases (exec_tick_ends_stopMark hlast hp).symm.trans h
    exact ⟨by simp [busy, hp], rfl⟩
  · rintro ⟨hbusy, hidle⟩
    exact (eq_reset_or_last_tick_of_idle h hbusy hidle).resolve_left hreset

theorem exec_tick_outputs {s t : State} (h : exec .tick s = .next t) :
    t.outputs = if busy s = true ∧ busy t = false then .txDone :: s.outputs else s.outputs := by
  rw [exec_outputs h, if_neg (by decide), if_congr (txDone_iff_becomes_idle h (by decide)) rfl rfl]

/-- After `k` TICKs the emitter is at level `k` of the waveform that was to come, and `tx_done` is signalled by its last
microsecond (41_encoder.md R70 to R75). -/
theorem runEvents_ticks (k : Nat) {s : State} (hinv : SequencerInv s) :
    ∃ t, runEvents (ticks k) s = .next t
      ∧ t.emitOn = levelAt (segmentsToCome s) k
      ∧ busy t = decide (k < segmentsMicros (segmentsToCome s))
      ∧ t.outputs = (if segmentsMicros (segmentsToCome s) = 0 ∨ k < segmentsMicros (segmentsToCome s) then s.outputs
          else .txDone :: s.outputs)
      ∧ t.encFrame = s.encFrame ∧ decoderPart t = decoderPart s := by
  induction k generalizing s with
  | zero =>
    have hzero : segmentsMicros (segmentsToCome s) = 0 ∨ 0 < segmentsMicros (segmentsToCome s) := Nat.eq_zero_or_pos _
    exact ⟨s, rfl, emitOn_eq_levelAt_zero hinv, busy_eq_decide_pos hinv, (if_pos hzero).symm, rfl, rfl⟩
  | succ k ih =>
    obtain ⟨u, hu⟩ := exec_answers .tick s
    have hinv' : SequencerInv u := sequencerInv_exec hinv hu
    obtain ⟨t, hrun, hlevel, hbusy, houtputs, hframe, hdecoder⟩ := ih hinv'
    have hrunning := running_segmentsToCome hinv
    have hmicros := segmentsMicros_afterMicro hrunning
    have hfirst := exec_tick_outputs hu
    rw [busy_eq_decide_pos hinv, busy_eq_decide_pos hinv'] at hfirst
    rw [segmentsToCome_tick hinv hu] at hlevel hbusy houtputs hfirst
    rw [hmicros] at hbusy houtputs hfirst
    refine ⟨t, (runEvents_cons hu _).trans hrun, ?_, ?_, ?_, ?_, ?_⟩
    · rw [hlevel, levelAt_afterMicro hrunning]
    · rw [hbusy]
      congr 1
      simp only [eq_iff_iff]
      omega
    · rw [houtputs, hfirst]
      rcases segmentsMicros (segmentsToCome s) with _ | _ | micros
      · simp
      · simp
      · simp
    · rw [hframe]
      exact (encoderElementsHaveTheirWriters .tick s u hu).1.resolve_right (by simp)
    · rw [hdecoder, decoderPart_exec_of_encoder_event hu (.inr rfl)]

/-- A transmission accepted from IDLE: its waveform, from the accepting event on. -/
theorem runEvents_transmission {i : Instr} {s u : State} {kind : EncKind} (h : exec i s = .next (startTransmission kind u))
    (k : Nat) :
    ∃ t, runEvents (i :: ticks k) s = .next t
      ∧ t.emitOn = levelAt (segmentsToCome (startTransmission kind u)) k
      ∧ busy t = decide (k < segmentsMicros (segmentsToCome (startTransmission kind u)))
      ∧ t.outputs = (if k < segmentsMicros (segmentsToCome (startTransmission kind u)) then u.outputs
          else .txDone :: u.outputs)
      ∧ t.encFrame = u.encFrame ∧ decoderPart t = decoderPart u := by
  have hinv : SequencerInv (startTransmission kind u) := sequencerInv_enterPhase (by simp) _
  have hpos : segmentsMicros (segmentsToCome (startTransmission kind u)) ≠ 0 := by
    have hbusy := busy_eq_decide_pos hinv
    intro hzero
    rw [hzero] at hbusy
    cases hbusy
  obtain ⟨t, hrun, hlevel, hbusy, houtputs, hframe, hdecoder⟩ := runEvents_ticks k hinv
  simp only [hpos, false_or] at houtputs
  exact ⟨t, (runEvents_cons h _).trans hrun, hlevel, hbusy, houtputs, hframe, hdecoder⟩

/-- What a full frame sends from the accepting event on (41_encoder.md R70). -/
theorem segmentsToCome_fullFrame (s : State) :
    segmentsToCome (startTransmission .fullFrame s) = frameSegments s.encFrame := by
  simp [startTransmission, segmentsToCome_enterPhase, segmentsAfter, phaseLevel, phaseMicros, frameSegments, bitsFrom,
    List.range_eq_range']

/-- What a repeat code sends from the accepting event on (41_encoder.md R71). -/
theorem segmentsToCome_repeatCode (s : State) :
    segmentsToCome (startTransmission .repeatCode s) = repeatSegments := by
  simp [startTransmission, segmentsToCome_enterPhase, segmentsAfter, phaseLevel, phaseMicros, repeatSegments]

theorem segmentsMicros_repeatSegments : segmentsMicros repeatSegments = 11810 := rfl

/-- The levels of a repeat code: on for 9000, off for 2250, on for 560 (41_encoder.md R71). -/
theorem levelAt_repeatSegments (k : Nat) :
    levelAt repeatSegments k = (decide (k < 9000) || (decide (11250 ≤ k) && decide (k < 11810))) := by
  simp only [repeatSegments, levelAt, Config.leadingPulse, Config.repeatSpace, Config.pulse]
  split_ifs with hmark hspace hstop <;> simp <;> omega

/-- Settles O38: the waveform still to come when a full frame starts is the frame's. -/
theorem fullFrameWaveform : Obligations.FullFrameWaveform := by
  intro s a c k hidle
  have hrun := runEvents_transmission (exec_of_eventEffect (.frameStarts a c hidle)) k
  simp only [segmentsToCome_fullFrame, segmentsMicros_frameSegments] at hrun
  exact hrun

/-- Settles O39: the waveform still to come when a repeat code starts is mark, space and stop mark. -/
theorem repeatCodeWaveform : Obligations.RepeatCodeWaveform := by
  intro s k hidle
  have hrun := runEvents_transmission (exec_of_eventEffect (.repeatStarts hidle)) k
  simp only [segmentsToCome_repeatCode, segmentsMicros_repeatSegments, levelAt_repeatSegments] at hrun
  exact hrun

end Sys2Proof.Machine
end

section
/-! PROOF. `tx_done` counted against the accepted requests (41_encoder.md R74). -/

namespace Sys2Proof.Machine

theorem txDoneCount_exec {i : Instr} {s t : State} (hreset : i ≠ .reset) (h : exec i s = .next t) :
    txDoneCount t = txDoneCount s + if busy s = true ∧ busy t = false then 1 else 0 := by
  have hdone := txDone_iff_becomes_idle h hreset
  rw [← if_congr hdone rfl rfl, txDoneCount, exec_outputs h]
  by_cases hdrain : i = .drain
  · simp [hdrain, txDoneCount]
  · rw [if_neg hdrain]
    split_ifs <;> simp [txDoneCount]

/-- A request is accepted exactly when it makes an idle encoder busy (41_encoder.md R66, R67, R73). -/
theorem accepted_iff_becomes_busy {i : Instr} {s t : State} (h : exec i s = .next t) :
    (isRequest i && !busy s) = true ↔ busy s = false ∧ busy t = true := by
  rw [Bool.and_eq_true, Bool.not_eq_true', busy_eq_false_iff, busy_eq_true_iff]
  cases eventEffect_of_exec h with
  | frameStarts _ _ hidle | repeatStarts hidle => simp [isRequest, (busy_eq_false_iff s).1 hidle]
  | frameHeld _ _ hbusy | repeatHeld hbusy => simp [(busy_eq_true_iff s).1 hbusy]
  | tickEnds hidle => simp [isRequest, hidle]
  | fall | rise | tickRests | tickCounts | drain | reset => simp [isRequest]

/-- Each event other than RESET keeps the account: what becomes idle signals, what becomes busy was accepted. -/
theorem txDoneCount_add_busy_exec {i : Instr} {s t : State} (hreset : i ≠ .reset) (h : exec i s = .next t) :
    txDoneCount t + (busy t).toNat = txDoneCount s + (busy s).toNat + if isRequest i && !busy s then 1 else 0 := by
  rw [txDoneCount_exec hreset h, if_congr (accepted_iff_becomes_busy h) rfl rfl]
  cases busy s <;> cases busy t <;> simp

/-- Settles O41, by induction on the list of events. -/
theorem txDoneOncePerAcceptedRequest : Obligations.TxDoneOncePerAcceptedRequest := by
  intro events
  induction events with
  | nil =>
    intro s t _ h
    cases h
    rfl
  | cons i events ih =>
    intro s t hreset h
    obtain ⟨hfirst, hrest⟩ := not_or.1 (mt List.mem_cons.2 hreset)
    obtain ⟨u, hu⟩ := exec_answers i s
    rw [runEvents_cons hu] at h
    have hevent := txDoneCount_add_busy_exec (Ne.symm hfirst) hu
    have hevents := ih u t hrest h
    simp only [acceptedRequests, hu]
    omega

end Sys2Proof.Machine
end

section
/-! PROOF. The classifier's partition of the durations and the comparator tree (42_classifier.md R80 to R83), the
duration a backward timestamp gives (70_reset_and_hazards.md R141). -/

namespace Sys2Proof.Machine

/-- INVALID is what lies in none of the four windows (42_classifier.md R80). -/
theorem classify_eq_invalid_iff (d : Timestamp) :
    classify d = .invalid ↔
      ¬ (4000 < d.toNat ∧ d.toNat < 5000) ∧ ¬ (400 < d.toNat ∧ d.toNat < 800)
        ∧ ¬ (1500 < d.toNat ∧ d.toNat < 1900) ∧ ¬ (2000 < d.toNat ∧ d.toNat < 2500) := by
  rw [← classify_eq_leading_iff, ← classify_eq_zero_iff, ← classify_eq_one_iff, ← classify_eq_repeated_iff]
  cases classify d <;> decide

/-- The eight comparisons are the bounds of the four windows (42_classifier.md R82). -/
theorem comparatorHits_eq (d : Timestamp) :
    comparatorHits d =
      ⟨insideWindow Config.leadingWindow d, insideWindow Config.zeroWindow d, insideWindow Config.oneWindow d,
        insideWindow Config.repeatWindow d⟩ := by
  simp [comparatorHits, insideWindow, BitVec.ult]

/-- A hit is 1 exactly when its symbol is the one answered. -/
theorem comparatorHits_eq_classify (d : Timestamp) :
    comparatorHits d =
      ⟨decide (classify d = .leading), decide (classify d = .zero), decide (classify d = .one),
        decide (classify d = .repeated)⟩ := by
  simp [comparatorHits_eq, insideWindow, classify_eq_leading_iff, classify_eq_zero_iff, classify_eq_one_iff,
    classify_eq_repeated_iff]

/-- A timestamp `k` microseconds early measures 2^32 - k (70_reset_and_hazards.md R141). -/
theorem toNat_edgeDuration_backward (last : Timestamp) {k : Nat} (hpos : 0 < k) (hle : k < 2 ^ 32) :
    (edgeDuration (last - BitVec.ofNat 32 k) last).toNat = 2 ^ 32 - k := by
  rw [edgeDuration]
  bv_omega

/-- Settles O24: the windows' bounds. -/
theorem classifierPartitionsTheDurations : Obligations.ClassifierPartitionsTheDurations := by
  intro d
  simp only [classify_eq_invalid_iff, classify_eq_zero_iff, classify_eq_one_iff, classify_eq_repeated_iff,
    classify_eq_leading_iff]
  omega

/-- Settles O25: each hit is its window's test, and the answered symbol is one. -/
theorem comparatorTreeIsTheClassifier : Obligations.ComparatorTreeIsTheClassifier := by
  intro d
  constructor
  · rw [comparatorSymbol, comparatorHits_eq]
    rfl
  · rw [comparatorHits_eq_classify]
    cases classify d <;> decide

/-- Settles O26: 2^32 - k is at least 5000, above every window. -/
theorem backwardTimestampIsInvalid : Obligations.BackwardTimestampIsInvalid := by
  intro last k hpos hle
  have hduration := toNat_edgeDuration_backward last hpos (by omega)
  refine ⟨hduration, (classify_eq_invalid_iff _).2 ?_⟩
  rw [hduration]
  omega

end Sys2Proof.Machine
end

section
/-! PROOF. The error conditions of a falling edge (60_exceptions.md R116), the first edge after RESET
(70_reset_and_hazards.md R136), and that a RISE makes the decoder forget the timestamp before it (43_decoder.md R100). -/

namespace Sys2Proof.Machine

section
variable {s : State}

theorem symbolErrors_of_awaitingStart {sym : Symbol} (hs : s.decState = .awaitingStart) (hsym : sym ≠ .leading) :
    symbolErrors sym s = [.noise] := by
  cases sym with
  | leading => exact absurd rfl hsym
  | zero | one | repeated | invalid => simp [symbolErrors, hs]

theorem symbolErrors_leading_of_awaitingStart (hs : s.decState = .awaitingStart) : symbolErrors .leading s = [] := by
  simp [symbolErrors, hs]

/-- A bit meets no condition but OVERRUN, and that when it completes a frame over one not drained. -/
theorem symbolErrors_bitSymbol_of_receivingBits (hs : s.decState = .receivingBits) (b : Bool) :
    symbolErrors (bitSymbol b) s = if readCount s + 1#6 = 32#6 ∧ s.frameReady = true then [.overrun] else [] := by
  cases b <;> simp [symbolErrors, bitSymbol, completesFrame, hs]

theorem symbolErrors_of_receivingBits {sym : Symbol} (hs : s.decState = .receivingBits) (hzero : sym ≠ .zero)
    (hone : sym ≠ .one) : symbolErrors sym s = [.timing] ∨ symbolErrors sym s = [.repeatAbort] := by
  cases sym with
  | zero => exact absurd rfl hzero
  | one => exact absurd rfl hone
  | invalid | leading => exact .inl (by simp [symbolErrors, hs])
  | repeated => exact .inr (by simp [symbolErrors, hs])

end

/-- Settles O32: each way a symbol can go meets its own condition, or none. -/
theorem errorConditionsHaveTheirEffects : Obligations.ErrorConditionsHaveTheirEffects := by
  intro now s t h
  rw [eq_of_eventEffect h (.fall now), eventErrors]
  generalize classify (edgeDuration now s.lastEdgeTimestamp) = sym
  have heffect := symbolEffect_actOnSymbol sym s
  generalize actOnSymbol sym s = u at heffect
  cases heffect with
  | ignores hs hsym =>
    rw [symbolErrors_of_awaitingStart hs hsym]
    exact ⟨by simp, fun _ => rfl, by simp⟩
  | starts hs => simp [symbolErrors_leading_of_awaitingStart hs]
  | appends b hs hmore => simp [symbolErrors_bitSymbol_of_receivingBits hs, hmore]
  | completes b hs hlast =>
    rw [symbolErrors_bitSymbol_of_receivingBits hs]
    cases hready : s.frameReady <;> simp [hlast]
  | aborts hs hzero hone =>
    rcases symbolErrors_of_receivingBits hs hzero hone with herrors | herrors <;> rw [herrors]
    · exact ⟨fun _ => rfl, by simp, by simp⟩
    · exact ⟨fun _ => rfl, by simp, by simp⟩

/-- Settles O49: RESET leaves AWAITING_START and the timestamp 0, so the FALL measures its own timestamp. -/
theorem firstFallAfterReset : Obligations.FirstFallAfterReset := by
  intro now s
  have hduration : edgeDuration now (resetElements s).lastEdgeTimestamp = now := BitVec.sub_zero now
  have hrun : runEvents [.reset, .edgeFall now] s
      = .next (recordEdge now (actOnSymbol (classify now) (resetElements s))) := by
    rw [runEvents_cons (exec_of_eventEffect .reset), runEvents_cons (exec_of_eventEffect (.fall now)), hduration]
    rfl
  refine ⟨_, hrun, ?_⟩
  rw [← classify_eq_leading_iff]
  by_cases hleading : classify now = .leading
  · rw [hleading, actOnSymbol_leading_of_awaitingStart rfl]
    simp
  · rw [actOnSymbol_of_awaitingStart rfl hleading]
    simp [hleading]

/-- Settles O27: the two states agree after the RISE. -/
theorem marksAreNeverMeasured : Obligations.MarksAreNeverMeasured := by
  intro s old rise fall
  rw [runEvents_cons (exec_of_eventEffect (.rise rise)), runEvents_cons (exec_of_eventEffect (.rise rise))]
  rfl

end Sys2Proof.Machine
end

section
/-! PROOF. The ideal edges of a frame at the decoder (43_decoder.md R101 to R103): a mark is one FALL, whose symbol is that
of the space before it, and a RISE, which only starts the next space. -/

namespace Sys2Proof.Machine

/-! ### Marks and spaces -/

theorem edgeDuration_add (t d : Timestamp) : edgeDuration (t + d) t = d := by
  rw [edgeDuration, BitVec.add_comm, BitVec.add_sub_cancel]

theorem runEvents_append {L : List Instr} {s u : State} (h : runEvents L s = .next u) (M : List Instr) :
    runEvents (L ++ M) s = runEvents M u := by
  induction L generalizing s with
  | nil =>
    cases h
    rfl
  | cons i L ih =>
    obtain ⟨v, hv⟩ := exec_answers i s
    rw [runEvents_cons hv] at h
    rw [List.cons_append, runEvents_cons hv, ih h]

theorem recordEdge_recordEdge (r r' : Timestamp) (s : State) : recordEdge r (recordEdge r' s) = recordEdge r s := rfl

/-- The decoder after a mark from `t` to `r`. -/
def receiveMark (t r : Timestamp) (s : State) : State :=
  recordEdge r (actOnSymbol (classify (edgeDuration t s.lastEdgeTimestamp)) s)

/-- A waveform's last mark (30_encoding.md R61). -/
theorem runEvents_last_mark (t : Timestamp) (m : Nat) (s : State) :
    runEvents (edgesOf t [⟨true, m⟩]) s = .next (receiveMark t (t + BitVec.ofNat 32 m) s) := by
  rfl

/-- A mark and the space after it, then the rest of the waveform (30_encoding.md R61). -/
theorem runEvents_mark_space (t : Timestamp) (m d : Nat) (gs : List Segment) (s : State) :
    runEvents (edgesOf t (⟨true, m⟩ :: ⟨false, d⟩ :: gs)) s
      = runEvents (edgesOf (t + BitVec.ofNat 32 m + BitVec.ofNat 32 d) gs)
          (receiveMark t (t + BitVec.ofNat 32 m) s) := by
  rfl

/-- A data bit is a mark and a space (30_encoding.md R60). -/
theorem flatMap_bitSegments_cons (F : Frame) (i : Nat) (bits : List Nat) :
    (i :: bits).flatMap (bitSegments F)
      = ⟨true, Config.pulse⟩ :: ⟨false, bitSpaceMicros (F.getLsbD i)⟩ :: bits.flatMap (bitSegments F) := by
  rfl

theorem edgesOf_append (t : Timestamp) (gs gs' : List Segment) :
    edgesOf t (gs ++ gs') = edgesOf t gs ++ edgesOf (t + BitVec.ofNat 32 (segmentsMicros gs)) gs' := by
  induction gs generalizing t with
  | nil => simp [edgesOf]
  | cons g gs ih => simp [edgesOf, ih, BitVec.ofNat_add, BitVec.add_assoc]

/-! ### A decoder that waits for a frame -/

/-- In AWAITING_START a mark after any space but a leading one only records its end (43_decoder.md R93). -/
theorem receiveMark_of_awaitingStart {s : State} (hs : s.decState = .awaitingStart) {t : Timestamp}
    (hidle : classify (edgeDuration t s.lastEdgeTimestamp) ≠ .leading) (r : Timestamp) :
    receiveMark t r s = recordEdge r s := by
  rw [receiveMark, actOnSymbol_of_awaitingStart hs hidle]

theorem bitSymbol_ne_leading (b : Bool) : bitSymbol b ≠ .leading := by
  cases b <;> decide

/-- The space after bit `i`'s mark is not a leading space. -/
theorem classify_space_ne_leading (F : Frame) (i : Nat) (r : Timestamp) (s : State) :
    classify (edgeDuration (r + BitVec.ofNat 32 (bitSpaceMicros (F.getLsbD i))) (recordEdge r s).lastEdgeTimestamp)
      ≠ .leading := by
  rw [recordEdge_lastEdgeTimestamp, edgeDuration_add, classify_bitSpaceMicros]
  exact bitSymbol_ne_leading _

/-- In AWAITING_START the data bits and the stop mark pass by (43_decoder.md R93, R103). -/
theorem runEvents_bits_of_awaitingStart (F : Frame) (bits : List Nat) {s : State} (hs : s.decState = .awaitingStart)
    {t : Timestamp} (hidle : classify (edgeDuration t s.lastEdgeTimestamp) ≠ .leading) :
    ∃ r, runEvents (edgesOf t (bits.flatMap (bitSegments F) ++ [⟨true, Config.pulse⟩])) s = .next (recordEdge r s) := by
  induction bits generalizing s t with
  | nil => exact ⟨_, (runEvents_last_mark t _ s).trans (congrArg _ (receiveMark_of_awaitingStart hs hidle _))⟩
  | cons i bits ih =>
    rw [flatMap_bitSegments_cons, List.cons_append, List.cons_append, runEvents_mark_space,
      receiveMark_of_awaitingStart hs hidle]
    obtain ⟨r, hrun⟩ := ih ((recordEdge_decState _ s).trans hs)
      (classify_space_ne_leading F i (t + BitVec.ofNat 32 Config.pulse) s)
    exact ⟨r, by rw [hrun, recordEdge_recordEdge]⟩

theorem classify_repeatSpace : classify (BitVec.ofNat 32 Config.repeatSpace) = .repeated := by decide

theorem classify_leadingSpace : classify (BitVec.ofNat 32 Config.leadingSpace) = .leading := by decide

/-- A full frame is its leading mark and space, then the data bits and the stop mark (30_encoding.md R60). -/
theorem frameSegments_eq (F : Frame) :
    frameSegments F = ⟨true, Config.leadingPulse⟩ :: ⟨false, Config.leadingSpace⟩ :: bitsFrom F 0 := by
  simp [frameSegments, bitsFrom, List.range_eq_range']

/-- Settles O30: neither the idle nor the repeat space is a leading space. -/
theorem repeatCodeIsIgnored : Obligations.RepeatCodeIsIgnored := by
  intro s t0 hs hidle
  have hs' : (recordEdge (t0 + BitVec.ofNat 32 Config.leadingPulse) s).decState = .awaitingStart :=
    (recordEdge_decState _ s).trans hs
  have hspace : classify (edgeDuration (t0 + BitVec.ofNat 32 Config.leadingPulse + BitVec.ofNat 32 Config.repeatSpace)
      (recordEdge (t0 + BitVec.ofNat 32 Config.leadingPulse) s).lastEdgeTimestamp) ≠ .leading := by
    rw [recordEdge_lastEdgeTimestamp, edgeDuration_add, classify_repeatSpace]
    decide
  rw [necRepeat, repeatSegments, runEvents_mark_space, receiveMark_of_awaitingStart hs hidle, runEvents_last_mark,
    receiveMark_of_awaitingStart hs' hspace, recordEdge_recordEdge, BitVec.add_assoc, BitVec.add_assoc]
  rfl

/-- The idle before a FALL at `t` is taken for a leading space, or for a bit's space that does not complete a frame
(43_decoder.md R103, log 13). -/
def MisreadIdle (t : Timestamp) (s : State) : Prop :=
  (s.decState = .awaitingStart ∧ classify (edgeDuration t s.lastEdgeTimestamp) = .leading)
    ∨ (s.decState = .receivingBits ∧ s.bitsAccumulated.toNat < 31
        ∧ (classify (edgeDuration t s.lastEdgeTimestamp) = .zero
            ∨ classify (edgeDuration t s.lastEdgeTimestamp) = .one))

/-- After a misread idle the leading mark leaves RECEIVING_BITS, with nothing published (43_decoder.md R103). -/
theorem receiveMark_of_misreadIdle {s : State} {t : Timestamp} (hidle : MisreadIdle t s) (r : Timestamp) :
    (receiveMark t r s).decState = .receivingBits ∧ (receiveMark t r s).completedFrame = s.completedFrame
      ∧ (receiveMark t r s).frameReady = s.frameReady := by
  rcases hidle with ⟨hs, hsym⟩ | ⟨hs, hcount, hsym⟩
  · rw [receiveMark, hsym, actOnSymbol_leading_of_awaitingStart hs]
    exact ⟨rfl, rfl, rfl⟩
  · obtain ⟨b, hbit⟩ : ∃ b, classify (edgeDuration t s.lastEdgeTimestamp) = bitSymbol b :=
      hsym.elim (fun h => ⟨false, h⟩) (fun h => ⟨true, h⟩)
    rw [receiveMark, hbit, actOnSymbol_bitSymbol_of_receivingBits hs, appendBit_of_lt_31 hcount]
    exact ⟨hs, rfl, rfl⟩

/-- In RECEIVING_BITS a mark after a leading space aborts (43_decoder.md R97). -/
theorem receiveMark_leading_of_receivingBits {s : State} (hs : s.decState = .receivingBits) {t : Timestamp}
    (hsym : classify (edgeDuration t s.lastEdgeTimestamp) = .leading) (r : Timestamp) :
    receiveMark t r s = recordEdge r (abortFrame s) := by
  rw [receiveMark, hsym, actOnSymbol_of_receivingBits hs (by decide) (by decide)]

/-- A decoder in RECEIVING_BITS loses the data bits after a leading space: their first mark aborts, the others pass by. -/
theorem runEvents_bitsFrom_of_receivingBits (F : Frame) {s : State} (hs : s.decState = .receivingBits) :
    ∃ r, runEvents (edgesOf (s.lastEdgeTimestamp + BitVec.ofNat 32 Config.leadingSpace) (bitsFrom F 0)) s
      = .next (recordEdge r (abortFrame s)) := by
  have hspace : classify (edgeDuration (s.lastEdgeTimestamp + BitVec.ofNat 32 Config.leadingSpace) s.lastEdgeTimestamp)
      = .leading := by
    rw [edgeDuration_add, classify_leadingSpace]
  rw [bitsFrom_of_lt F (by decide), runEvents_mark_space, receiveMark_leading_of_receivingBits hs hspace]
  obtain ⟨r, hrun⟩ := runEvents_bits_of_awaitingStart F (List.range' 1 31) (recordEdge_decState _ (abortFrame s))
    (classify_space_ne_leading F 0
      (s.lastEdgeTimestamp + BitVec.ofNat 32 Config.leadingSpace + BitVec.ofNat 32 Config.pulse) (abortFrame s))
  exact ⟨r, by rw [bitsFrom, hrun, recordEdge_recordEdge]⟩

/-- Settles O29: the leading mark is taken for the end of a space, the leading space then aborts, and the data bits pass
by a decoder that waits for a leading space. -/
theorem misreadIdleLosesTheFrame : Obligations.MisreadIdleLosesTheFrame := by
  intro s t0 F hidle
  obtain ⟨hs, hframe, hready⟩ := receiveMark_of_misreadIdle hidle (t0 + BitVec.ofNat 32 Config.leadingPulse)
  obtain ⟨r, hrun⟩ := runEvents_bitsFrom_of_receivingBits F hs
  rw [necFrame, frameSegments_eq, runEvents_mark_space]
  refine ⟨_, hrun, ?_⟩
  simp [hframe, hready]

end Sys2Proof.Machine
end

section
/-! PROOF. The round trip (43_decoder.md R102): the ideal edges of a frame leave it published, and the events of other
agents between them do not matter. -/

namespace Sys2Proof.Machine

/-! ### The bits received so far -/

/-- The decoder has received bits 0 to `n - 1` of `F` (10_state.md R16, R17). -/
def ReceivedBits (F : Frame) (n : Nat) (s : State) : Prop :=
  s.decState = .receivingBits ∧ s.bitsAccumulated.toNat = n ∧ ∀ j < n, s.partialFrame.getLsbD j = F.getLsbD j

theorem receiveMark_lastEdgeTimestamp (t r : Timestamp) (s : State) : (receiveMark t r s).lastEdgeTimestamp = r := rfl

theorem receivedBits_congr {F : Frame} {n : Nat} {s s' : State} (ha : assembly s = assembly s')
    (h : ReceivedBits F n s') : ReceivedBits F n s := by
  obtain ⟨hs, -, hcount, hbits, -⟩ := assembly_eq_iff.1 ha
  rwa [ReceivedBits, hs, hcount, hbits]

theorem receivedBits_startFrame (F : Frame) (s : State) : ReceivedBits F 0 (startFrame s) := by
  simp [ReceivedBits]

theorem receivedBits_recordEdge (F : Frame) (n : Nat) (r : Timestamp) (s : State) :
    ReceivedBits F n (recordEdge r s) ↔ ReceivedBits F n s := Iff.rfl

/-- The symbol of bit `n` adds it to the bits received (43_decoder.md R94, R95). -/
theorem receivedBits_succ {F : Frame} {n : Nat} {s : State} (h : ReceivedBits F n s) (hn : n < 31) :
    ReceivedBits F (n + 1) (actOnSymbol (bitSymbol (F.getLsbD n)) s) := by
  obtain ⟨hs, hcount, hbits⟩ := h
  rw [actOnSymbol_bitSymbol_of_receivingBits hs, appendBit_of_lt_31 (by omega)]
  refine ⟨hs, ?_, fun j hj => ?_⟩
  · show (s.bitsAccumulated + 1#6).toNat = n + 1
    bv_omega
  · show (appendedFrame (F.getLsbD n) s).getLsbD j = F.getLsbD j
    rw [getLsbD_appendedFrame (by omega) _ (by omega), hcount]
    split_ifs with hlast
    · rw [hlast]
    · exact hbits j (by omega)

/-- The symbol of bit 31 publishes the frame (43_decoder.md R98). -/
theorem actOnSymbol_last_bit {F : Frame} {s : State} (h : ReceivedBits F 31 s) :
    actOnSymbol (bitSymbol (F.getLsbD 31)) s = publishFrame F { s with partialFrame := F } := by
  obtain ⟨hs, hcount, hbits⟩ := h
  rw [actOnSymbol_bitSymbol_of_receivingBits hs, appendBit_of_eq_31 hcount, appendedFrame_of_eq_31 hcount hbits]

/-- A FALL that measures the last bit's space publishes the frame (43_decoder.md R98). -/
theorem exec_edgeFall_last_bit {F : Frame} {now : Timestamp} {s : State} (h : ReceivedBits F 31 s)
    (hsym : classify (edgeDuration now s.lastEdgeTimestamp) = bitSymbol (F.getLsbD 31)) :
    exec (.edgeFall now) s = .next (recordEdge now (publishFrame F { s with partialFrame := F })) := by
  rw [exec_of_eventEffect (.fall now), hsym, actOnSymbol_last_bit h]

/-- The space after bit `n`'s mark is classified as that bit. -/
theorem classify_space_after_mark (F : Frame) (n : Nat) (t r : Timestamp) (s : State) :
    classify (edgeDuration (r + BitVec.ofNat 32 (bitSpaceMicros (F.getLsbD n))) (receiveMark t r s).lastEdgeTimestamp)
      = bitSymbol (F.getLsbD n) := by
  rw [receiveMark, recordEdge_lastEdgeTimestamp, edgeDuration_add, classify_bitSpaceMicros]

/-- A mark and a space later. -/
theorem add_segmentsMicros_mark_space (t : Timestamp) (m d : Nat) (gs : List Segment) :
    t + BitVec.ofNat 32 (segmentsMicros (⟨true, m⟩ :: ⟨false, d⟩ :: gs))
      = t + BitVec.ofNat 32 m + BitVec.ofNat 32 d + BitVec.ofNat 32 (segmentsMicros gs) := by
  simp [BitVec.ofNat_add, BitVec.add_assoc]

theorem add_segmentsMicros_bit (t : Timestamp) (F : Frame) (n : Nat) :
    t + BitVec.ofNat 32 (segmentsMicros (bitSegments F n))
      = t + BitVec.ofNat 32 Config.pulse + BitVec.ofNat 32 (bitSpaceMicros (F.getLsbD n)) := by
  rw [bitSegments, add_segmentsMicros_mark_space, segmentsMicros_nil, BitVec.add_zero]

theorem runEvents_bit (t : Timestamp) (F : Frame) (n : Nat) (s : State) :
    runEvents (edgesOf t (bitSegments F n)) s = .next (receiveMark t (t + BitVec.ofNat 32 Config.pulse) s) :=
  runEvents_mark_space t _ _ [] s

/-- Receiving the marks of bits `n` to `n + m - 1`, when the FALL at `t` makes it `n` bits: the next FALL makes it
`n + m`. -/
theorem receivedBits_of_bits (F : Frame) (m : Nat) {n : Nat} (hn : n + m ≤ 31) {t : Timestamp} {s : State}
    (h : ReceivedBits F n (actOnSymbol (classify (edgeDuration t s.lastEdgeTimestamp)) s)) :
    ∃ u, runEvents (edgesOf t ((List.range' n m).flatMap (bitSegments F))) s = .next u
      ∧ ReceivedBits F (n + m) (actOnSymbol (classify (edgeDuration
          (t + BitVec.ofNat 32 (segmentsMicros ((List.range' n m).flatMap (bitSegments F)))) u.lastEdgeTimestamp)) u) := by
  induction m generalizing n t s with
  | zero => exact ⟨s, rfl, by simpa using h⟩
  | succ m ih =>
    have hnext : ReceivedBits F (n + 1) (actOnSymbol (bitSymbol (F.getLsbD n))
        (receiveMark t (t + BitVec.ofNat 32 Config.pulse) s)) :=
      receivedBits_succ ((receivedBits_recordEdge F n _ _).2 h) (by omega)
    rw [← classify_space_after_mark F n t _ s] at hnext
    rw [List.range'_succ, flatMap_bitSegments_cons, runEvents_mark_space, add_segmentsMicros_mark_space,
      ← Nat.add_assoc, Nat.add_right_comm]
    exact ih (by omega) hnext

/-- The waveform before the stop mark: the leading mark and space, bits 0 to 30, and bit 31. -/
def beforeStopMark (F : Frame) : List Segment :=
  ⟨true, Config.leadingPulse⟩ :: ⟨false, Config.leadingSpace⟩
    :: ((List.range' 0 31).flatMap (bitSegments F) ++ bitSegments F 31)

theorem frameSegments_eq_beforeStopMark_append (F : Frame) :
    frameSegments F = beforeStopMark F ++ [⟨true, Config.pulse⟩] := by
  have hbits : List.range 32 = List.range' 0 31 ++ [31] := by decide
  simp [frameSegments, beforeStopMark, hbits]

/-- When the stop mark starts. -/
def stopMarkTime (t0 : Timestamp) (F : Frame) : Timestamp :=
  t0 + BitVec.ofNat 32 (segmentsMicros (beforeStopMark F))

/-- The ideal edges of a frame end with the stop mark's (30_encoding.md R61). -/
theorem necFrame_eq (t0 : Timestamp) (F : Frame) :
    necFrame t0 F = edgesOf t0 (beforeStopMark F)
      ++ [.edgeFall (stopMarkTime t0 F), .edgeRise (stopMarkTime t0 F + BitVec.ofNat 32 Config.pulse)] := by
  rw [necFrame, frameSegments_eq_beforeStopMark_append, edgesOf_append]
  rfl

theorem stopMarkTime_add (t0 : Timestamp) (F : Frame) :
    stopMarkTime t0 F + BitVec.ofNat 32 Config.pulse = t0 + BitVec.ofNat 32 (segmentsMicros (frameSegments F)) := by
  rw [frameSegments_eq_beforeStopMark_append, segmentsMicros_append, BitVec.ofNat_add, ← BitVec.add_assoc]
  rfl

/-- The idle before a FALL at `t` is neither taken for a leading space nor for a bit's (43_decoder.md R102). -/
def HarmlessIdle (t : Timestamp) (s : State) : Prop :=
  (s.decState = .awaitingStart ∧ classify (edgeDuration t s.lastEdgeTimestamp) ≠ .leading)
    ∨ (s.decState = .receivingBits ∧ classify (edgeDuration t s.lastEdgeTimestamp) ≠ .zero
        ∧ classify (edgeDuration t s.lastEdgeTimestamp) ≠ .one)

/-- After a harmless idle the leading mark leaves the decoder in AWAITING_START (43_decoder.md R93, R96, R97). -/
theorem receiveMark_of_harmlessIdle {t : Timestamp} {s : State} (hidle : HarmlessIdle t s) (r : Timestamp) :
    (receiveMark t r s).decState = .awaitingStart := by
  rcases hidle with ⟨hs, hsym⟩ | ⟨hs, hzero, hone⟩
  · rw [receiveMark_of_awaitingStart hs hsym, recordEdge_decState, hs]
  · rw [receiveMark, actOnSymbol_of_receivingBits hs hzero hone, recordEdge_decState, abortFrame_decState]

/-- After a leading space the FALL of bit 0's mark starts a frame (43_decoder.md R93). -/
theorem receivedBits_of_leadingSpace (F : Frame) {s : State} (hs : s.decState = .awaitingStart) :
    ReceivedBits F 0 (actOnSymbol (classify (edgeDuration
      (s.lastEdgeTimestamp + BitVec.ofNat 32 Config.leadingSpace) s.lastEdgeTimestamp)) s) := by
  rw [edgeDuration_add, classify_leadingSpace, actOnSymbol_leading_of_awaitingStart hs]
  exact receivedBits_startFrame F s

/-- From a state in which the idle is harmless, the edges before the stop mark leave 31 bits received, and the stop mark's
FALL measures the space of the last one (43_decoder.md R102). -/
theorem runEvents_beforeStopMark (F : Frame) {t0 : Timestamp} {s : State} (hidle : HarmlessIdle t0 s) :
    ∃ u, runEvents (edgesOf t0 (beforeStopMark F)) s = .next u ∧ ReceivedBits F 31 u
      ∧ classify (edgeDuration (stopMarkTime t0 F) u.lastEdgeTimestamp) = bitSymbol (F.getLsbD 31) := by
  have hwaits := receiveMark_of_harmlessIdle hidle (t0 + BitVec.ofNat 32 Config.leadingPulse)
  obtain ⟨u, hrun, hu⟩ := receivedBits_of_bits F 31 (Nat.le_refl _) (receivedBits_of_leadingSpace F hwaits)
  rw [receiveMark_lastEdgeTimestamp] at hrun hu
  rw [stopMarkTime, beforeStopMark, add_segmentsMicros_mark_space, runEvents_mark_space, edgesOf_append,
    segmentsMicros_append, BitVec.ofNat_add, ← BitVec.add_assoc, runEvents_append hrun, runEvents_bit,
    add_segmentsMicros_bit]
  exact ⟨_, rfl, (receivedBits_recordEdge F 31 _ _).2 hu, classify_space_after_mark F 31 _ _ u⟩

/-! ### The events of the other agents -/

/-- Is it an event of the Detector? -/
def isEdge (i : Instr) : Bool := agentOf i == .detector

/-- An event of another agent than the Detector, RESET apart, leaves the assembly alone (10_state.md R20). -/
theorem assembly_exec_of_not_edge {i : Instr} {s t : State} (h : exec i s = .next t) (hedge : isEdge i = false)
    (hreset : i ≠ .reset) : assembly t = assembly s := by
  cases i with
  | edgeFall _ | edgeRise _ => cases hedge
  | reset => exact absurd rfl hreset
  | txFrame _ _ | txRepeat | tick => rw [assembly, decoderPart_exec_of_encoder_event h (by simp [agentOf]), assembly]
  | drain => rw [assembly, decoderPart_exec_drain h, assembly]

/-- Without a RESET the assembly after a run is that after the run of its edges alone. -/
theorem assembly_runEvents_filter (events : List Instr) {s s' v : State} (hreset : .reset ∉ events)
    (ha : assembly s = assembly s') (hv : runEvents (events.filter isEdge) s' = .next v) :
    ∃ t, runEvents events s = .next t ∧ assembly t = assembly v := by
  induction events generalizing s s' with
  | nil =>
    cases hv
    exact ⟨s, rfl, ha⟩
  | cons i events ih =>
    obtain ⟨hfirst, hrest⟩ := not_or.1 (mt List.mem_cons.2 hreset)
    obtain ⟨u, hu⟩ := exec_answers i s
    rw [runEvents_cons hu]
    cases hedge : isEdge i with
    | false =>
      rw [List.filter_cons_of_neg (by simp [hedge])] at hv
      exact ih hrest ((assembly_exec_of_not_edge hu hedge (Ne.symm hfirst)).trans ha) hv
    | true =>
      obtain ⟨u', hu'⟩ := exec_answers i s'
      rw [List.filter_cons_of_pos hedge, runEvents_cons hu'] at hv
      exact ih hrest (assembly_exec_congr ha hu hu') hv

/-- Without a DRAIN or a RESET a frame that is ready stays ready (10_state.md R19). -/
theorem frameReady_runEvents {events : List Instr} {s t : State} (hdrain : .drain ∉ events) (hreset : .reset ∉ events)
    (h : runEvents events s = .next t) (hready : s.frameReady = true) : t.frameReady = true := by
  induction events generalizing s with
  | nil =>
    cases h
    exact hready
  | cons i events ih =>
    obtain ⟨hd, hdrain'⟩ := not_or.1 (mt List.mem_cons.2 hdrain)
    obtain ⟨hr, hreset'⟩ := not_or.1 (mt List.mem_cons.2 hreset)
    obtain ⟨u, hu⟩ := exec_answers i s
    rw [runEvents_cons hu] at h
    exact ih hdrain' hreset' h (by simp [exec_frameReady hu, hready, Ne.symm hd, Ne.symm hr])

/-- A list cut at its last FALL, in two ways. -/
theorem split_at_last_fall {A B init : List Instr} {x p q : Timestamp}
    (h : A ++ .edgeFall x :: B = init ++ [.edgeFall p, .edgeRise q]) (hB : ∀ y, .edgeFall y ∉ B) :
    A = init ∧ x = p ∧ B = [.edgeRise q] := by
  rcases List.append_eq_append_iff.1 h with ⟨C, hinit, hC⟩ | ⟨C, hA, hC⟩
  · cases C with
    | nil => simp_all
    | cons y C =>
      have hmem : Instr.edgeFall p ∈ B := by
        rw [(List.cons.inj hC).2]
        simp
      exact absurd hmem (hB p)
  · rcases C with _ | ⟨y, _ | ⟨z, C⟩⟩
    · simp_all
    · simp at hC
    · simp at hC

/-- Settles O28: the edges alone decide what the decoder assembles; those before the stop mark leave 31 bits, the stop
mark's FALL publishes the frame, and nothing after it clears or changes it. -/
theorem everyFrameIsReceived : Obligations.EveryFrameIsReceived := by
  intro s t0 F before after stop hedges hfalls hdrain hresetBefore hresetAfter hidle
  have hsplit : before.filter isEdge ++ .edgeFall stop :: after.filter isEdge = necFrame t0 F := by
    rw [← hedges, List.filter_append, List.filter_cons_of_pos rfl]
    rfl
  rw [necFrame_eq] at hsplit
  obtain ⟨hbefore, rfl, hafter⟩ := split_at_last_fall hsplit fun y hy => hfalls y (List.mem_of_mem_filter hy)
  obtain ⟨u, hu, hbits, hsym⟩ := runEvents_beforeStopMark F hidle
  obtain ⟨s₁, hs₁, ha₁⟩ := assembly_runEvents_filter before hresetBefore (rfl : assembly s = _) (hbefore ▸ hu)
  have hlast : s₁.lastEdgeTimestamp = u.lastEdgeTimestamp := (assembly_eq_iff.1 ha₁).2.1
  have hstop := exec_edgeFall_last_bit (receivedBits_congr ha₁ hbits) (hlast ▸ hsym)
  have hrise := runEvents_cons (exec_of_eventEffect (.rise (stopMarkTime t0 F + BitVec.ofNat 32 Config.pulse))) []
    (s := recordEdge (stopMarkTime t0 F) (publishFrame F { s₁ with partialFrame := F }))
  rw [← hafter] at hrise
  obtain ⟨t, ht, ha⟩ := assembly_runEvents_filter after hresetAfter rfl hrise
  obtain ⟨hs, htime, hcount, -, hframe, -⟩ := assembly_eq_iff.1 ha
  have hready : t.frameReady = true := frameReady_runEvents hdrain hresetAfter ht rfl
  rw [runEvents_append hs₁, runEvents_cons hstop]
  exact ⟨t, ht, hframe, hready, hs, hcount, htime.trans (stopMarkTime_add t0 F)⟩

end Sys2Proof.Machine
end

section
/-! PROOF. The least time between two completions (43_decoder.md R153): 33 FALLs, the first after a leading space, each
other after a data bit's. -/

namespace Sys2Proof.Machine

/-- An interval shorter than 2^32 microseconds is measured exactly (70_reset_and_hazards.md R140). -/
theorem toNat_edgeDuration_ofNat {last now : Nat} (hle : last ≤ now) (hlt : now - last < 2 ^ 32) :
    (edgeDuration (BitVec.ofNat 32 now) (BitVec.ofNat 32 last)).toNat = now - last := by
  rw [toNat_edgeDuration, BitVec.toNat_ofNat, BitVec.toNat_ofNat]
  omega

/-- What a decoder that waited for a frame at `start` can have reached at `now`, the time of the last edge: a frame begun
4001 microseconds later at the earliest, 401 for each bit, a completion 33 FALLs later (00_scope.md R6). -/
structure Pace (start now : Nat) (s : State) : Prop where
  last : s.lastEdgeTimestamp = BitVec.ofNat 32 now
  later : start ≤ now
  bits : s.decState = .receivingBits →
    s.bitsAccumulated.toNat < 32 ∧ start + 4001 + 401 * s.bitsAccumulated.toNat ≤ now
  complete : s.frameReady = true → start + 16833 ≤ now

/-- A space that stands for a bit is longer than 400 microseconds (00_scope.md R6). -/
theorem lt_of_classify_eq_bitSymbol {d : Timestamp} {b : Bool} (h : classify d = bitSymbol b) : 400 < d.toNat := by
  rcases (classify_eq_bitSymbol_iff b d).1 h with ⟨-, hlower, -⟩ | ⟨-, hlower, -⟩
  · exact hlower
  · omega

section
variable {start last now : Nat} {s : State} (hpace : Pace start last s) (hle : last ≤ now)
include hpace hle

/-- A RISE only lets time pass. -/
theorem pace_rise : Pace start now (recordEdge (BitVec.ofNat 32 now) s) where
  last := rfl
  later := hpace.later.trans hle
  bits hs := (hpace.bits hs).imp_right (·.trans hle)
  complete hready := (hpace.complete hready).trans hle

/-- A FALL goes on with a frame only after the time its symbol says has passed. -/
theorem pace_fall (hlt : now - last < 2 ^ 32) :
    Pace start now (recordEdge (BitVec.ofNat 32 now)
      (actOnSymbol (classify (edgeDuration (BitVec.ofNat 32 now) s.lastEdgeTimestamp)) s)) := by
  have hduration := toNat_edgeDuration_ofNat hle hlt
  rw [← hpace.last] at hduration
  have hlater : start ≤ now := hpace.later.trans hle
  have hready : s.frameReady = true → start + 16833 ≤ now := fun h => (hpace.complete h).trans hle
  generalize hsym : classify (edgeDuration (BitVec.ofNat 32 now) s.lastEdgeTimestamp) = sym
  have heffect := symbolEffect_actOnSymbol sym s
  generalize actOnSymbol sym s = t at heffect
  cases heffect with
  | ignores => exact pace_rise hpace hle
  | starts =>
    have hspace := ((classify_eq_leading_iff _).1 hsym).1
    have hfirst : start + 4001 ≤ now := by have := hpace.later; omega
    exact ⟨rfl, hlater, fun _ => ⟨by simp, by simpa using hfirst⟩, hready⟩
  | appends b hs hmore =>
    have hspace := lt_of_classify_eq_bitSymbol hsym
    obtain ⟨hcount, hpast⟩ := hpace.bits hs
    rw [readCount_of_reachable hcount] at hmore ⊢
    obtain ⟨hnext, hlt31⟩ := toNat_count_add_one hcount hmore
    have hbits : (s.bitsAccumulated + 1#6).toNat < 32 ∧ start + 4001 + 401 * (s.bitsAccumulated + 1#6).toNat ≤ now := by
      omega
    exact ⟨rfl, hlater, fun _ => hbits, hready⟩
  | completes b hs hlast =>
    have hspace := lt_of_classify_eq_bitSymbol hsym
    obtain ⟨hcount, hpast⟩ := hpace.bits hs
    have hfull : s.bitsAccumulated.toNat = 31 := by
      rw [readCount_of_reachable hcount] at hlast
      bv_omega
    have hcomplete : start + 16833 ≤ now := by omega
    exact ⟨rfl, hlater, fun hother => (nomatch hother), fun _ => hcomplete⟩
  | aborts => exact ⟨rfl, hlater, fun hother => (nomatch hother), hready⟩

end

theorem pace_exec {start last : Nat} {s t : State} {e : TimedEdge} (hpace : Pace start last s) (hle : last ≤ e.time)
    (hlt : e.time - last < 2 ^ 32) (h : exec e.event s = .next t) : Pace start e.time t := by
  cases hfalling : e.falling with
  | false =>
    rw [TimedEdge.event, hfalling] at h
    rw [eq_of_eventEffect h (.rise _)]
    exact pace_rise hpace hle
  | true =>
    rw [TimedEdge.event, hfalling] at h
    rw [eq_of_eventEffect h (.fall _)]
    exact pace_fall hpace hle hlt

theorem pace_runEvents (edges : List TimedEdge) {start now : Nat} {s t : State} (hpace : Pace start now s)
    (horder : EdgesInOrder now edges) (h : runEvents (edges.map TimedEdge.event) s = .next t) :
    Pace start (lastTime now edges) t := by
  induction edges generalizing now s with
  | nil =>
    cases h
    exact hpace
  | cons e edges ih =>
    obtain ⟨hle, hlt, hrest⟩ := horder
    obtain ⟨u, hu⟩ := exec_answers e.event s
    rw [List.map_cons, runEvents_cons hu] at h
    exact ih (pace_exec hpace hle hlt hu) hrest h

/-- Settles O31, by the pace kept along the edges. -/
theorem completionsAreFarApart : Obligations.CompletionsAreFarApart := by
  intro s t start edges hs hlast hready horder hrun hcomplete
  have hpace : Pace start start s :=
    ⟨hlast, Nat.le_refl _, fun hother => (nomatch hs.symm.trans hother),
      fun hother => (nomatch hready.symm.trans hother)⟩
  exact (pace_runEvents edges hpace horder hrun).complete hcomplete

end Sys2Proof.Machine
end
